-- ==== Sys2Proof/Word.lean ====
section
/-! DEFINITION. The block's one data unit, the byte, and sequences of bytes (00_scope.md R9, R10; 20_memory.md R50). -/

namespace Sys2Proof

/-- A byte: an unsigned 8-bit value, bit 7 the most significant (R9). -/
abbrev Byte := BitVec 8

/-- A finite sequence of bytes, element 0 first (R10). -/
abbrev Bytes := List Byte

end Sys2Proof
end

