-- ==== Sys2Proof/Config.lean ====
section
/-! DEFINITION. The implementation parameters of 00_scope.md R7, and the free values: constants without a body for what
the spec leaves open. The defaults marked PRESUMED are the spec's own general-knowledge values (93 G2, G4; log 16). -/

namespace Sys2Proof.Config

/-- `PKT_MAX`: micro-packet ceiling in bytes, opcode included (R7). -/
def pktMax : Nat := 32

/-- `PAY_MAX`: payload bytes per stream packet (R7). -/
def payMax : Nat := 31

/-- `LEN_MAX`: largest `out` or `payload` length (R7, D21). -/
def lenMax : Nat := 2 ^ 32 - 1

/-- `OP_SPI_STREAM`: stream-data marker (R7, R81). -/
def opSpiStream : Byte := 0xA8#8

/-- `OP_UIO_STREAM`: chip-select and IO-stream marker (R7, R82). -/
def opUioStream : Byte := 0xAB#8

/-- `UIO_OUT`: output-bits sub-opcode (R7, R82). PRESUMED by the spec (G2). -/
def uioOut : Byte := 0x80#8

/-- `UIO_DIR`: direction-mask sub-opcode (R7, R82). PRESUMED by the spec (G2). -/
def uioDir : Byte := 0x40#8

/-- `UIO_END`: end-of-stream marker (R7, R82). PRESUMED by the spec (G2). -/
def uioEnd : Byte := 0x20#8

/-- `CS_PAT_ON`: output pattern when asserting (R7, R83). PRESUMED by the spec (G2). -/
def csPatOn : BitVec 6 := 0x36#6

/-- `CS_PAT_OFF`: output pattern when deasserting (R7, R84). PRESUMED by the spec (G2). -/
def csPatOff : BitVec 6 := 0x37#6

/-- `CS_DIR_MASK`: direction mask in the assert frame (R7, R83). PRESUMED by the spec (G2). -/
def csDirMask : BitVec 6 := 0x3F#6

/-- `OP_I2C_STREAM`: stream marker of the speed packet (R7, R86). PRESUMED by the spec (G4). -/
def opI2cStream : Byte := 0xAA#8

/-- `I2C_STM_SET`: set-speed sub-opcode (R7, R86). PRESUMED by the spec (G4). -/
def i2cStmSet : Byte := 0x60#8

/-- `I2C_STM_END`: end marker of the speed packet (R7, R86). PRESUMED by the spec (G4). -/
def i2cStmEnd : Byte := 0x00#8

/-- `ERRCODE`, OPEN (R7, D20, I12): which numbers the transport has as its codes, as the list of its first code, its
second code and so on. Nothing says how many there are, for the list may repeat (log 6). -/
opaque errCodeNumber : Nat → Nat

/-- The type of a transport error code, `ERRCODE` (R7): the numbers that `errCodeNumber` lists. A code is passed through
unchanged and never computed with (R210). -/
abbrev ErrCode := { c : Nat // ∃ k, errCodeNumber k = c }

/-- The code that stands at place `k` of the transport's list. -/
def errCode (k : Nat) : ErrCode := ⟨errCodeNumber k, k, rfl⟩

/-- What a speed setting means on the bus; OPEN in the spec (R201), so only a tag (log 17). -/
abbrev BusBehaviour := Nat

/-- `BRIDGE_DEFAULT_SPEED`, OPEN (R7, R202). -/
opaque bridgeDefaultSpeed : BusBehaviour

/-- `SPEED_MAP`, OPEN (R201): from (mode, dbl) to bus behaviour. -/
opaque speedMap : BitVec 2 → Bool → BusBehaviour

/-- `T_XFER`, OPEN (R7, R221): the transport's per-transfer timeout. Nothing reads it: only a `TimedOut` result
reaches the block (log 18). -/
opaque tXfer : Nat

/-- Free value: a reply byte the environment draws (R60, I6; log 11). -/
opaque freeReply : Nat → Byte

/-- Free value: how many bytes of a packet reached the far end when its transfer did not succeed (R56, I9; log 10) or
was cut off by a reset (R241, D25; log 30). -/
opaque freeArrived : Nat → Nat

/-- Free value: how many bytes of the reply held were used up by a transfer that did not succeed (R214, I9; log 10, log 12)
or was cut off by a reset (R241, D25; log 30). -/
opaque freeTaken : Nat → Nat

/-- Free value: a chip-select level the spec does not give (R32, I10; log 9, log 10, log 14). True is selected. -/
opaque freeLevel : Nat → Bool

/-- Free value: an output latch the spec does not give (I9; log 10). -/
opaque freeLines : Nat → BitVec 6

/-- Free value: line directions the spec does not give (I9; log 10). -/
opaque freeDirs : Nat → BitVec 6

end Sys2Proof.Config
end

