-- ==== Sys2Proof/Syntax.lean ====
section
/-! DEFINITION. The instructions, one constructor per row of spec/opcode_table.json, and `Code`, one instruction as it
stands in one of the spec's three encoding spaces (30_encoding.md: requests, wire packets, UIO sub-commands). -/

namespace Sys2Proof

/-- One row of spec/opcode_table.json each. The first five are requests, run by the block (R22); the rest are wire
packets and UIO sub-commands, run by the far end that receives them (R58, R59, R82; log 1). -/
inductive Instr where
  /-- XCHG `out`, `cap` (R169). -/
  | xchg (out : Bytes) (cap : BitVec 32)
  /-- SPEED `mode`, `dbl` (R200). -/
  | speed (mode : BitVec 2) (dbl : Bool)
  /-- REV `b` (R111). -/
  | rev (b : Byte)
  /-- CSF `sel` (R120). -/
  | csf (sel : Bool)
  /-- TILE `payload` (R122). -/
  | tile (payload : Bytes)
  /-- The stream packet, its wire bytes as operand (R81). -/
  | spiStream (wire : Bytes)
  /-- The chip-select assert frame (R83). -/
  | csAssert
  /-- The chip-select deassert frame (R84). -/
  | csDeassert
  /-- The output-bits sub-command of an IO stream (R82). -/
  | uioStmOut (v : BitVec 6)
  /-- The direction-mask sub-command of an IO stream (R82). -/
  | uioStmDir (v : BitVec 6)
  /-- The end marker of an IO stream (R82). -/
  | uioStmEnd
  /-- The speed packet (R86). -/
  | setSpeed (mode : BitVec 2) (dbl : Bool)
deriving DecidableEq, Repr

/-- The operand shapes of a request record (R22). -/
inductive ReqArgs where
  | exchange (out : Bytes) (cap : BitVec 32)
  | busSpeed (mode : BitVec 2) (dbl : Bool)
  | oneByte (b : Byte)
  | oneFlag (sel : Bool)
  | manyBytes (payload : Bytes)
deriving DecidableEq, Repr

/-- The item on REQ: a typed record of an op code and operands, with no byte serialization (R91; log 2). -/
structure ReqRecord where
  op : Byte
  args : ReqArgs
deriving DecidableEq, Repr

/-- One instruction as it is encoded: a record on REQ, a whole transport packet, or one byte inside an IO stream. -/
inductive Code where
  | request (r : ReqRecord)
  | packet (p : Bytes)
  | subCommand (b : Byte)
deriving DecidableEq, Repr

end Sys2Proof
end

