-- ==== Sys2Proof/WellFormed.lean ====
section
/-! DEFINITION. The checks on operands whose range their Lean type does not already give. -/

namespace Sys2Proof

/-- Operands within the ranges of R22 (`out`, `payload` at most `LEN_MAX` bytes) and R81 (1 to 31 wire bytes). -/
def Instr.wellFormed : Instr → Bool
  | .xchg out _ => decide (out.length ≤ Config.lenMax)
  | .speed _ _ => true
  | .rev _ => true
  | .csf _ => true
  | .tile payload => decide (payload.length ≤ Config.lenMax)
  | .spiStream wire => decide (1 ≤ wire.length ∧ wire.length ≤ Config.payMax)
  | .csAssert => true
  | .csDeassert => true
  | .uioStmOut _ => true
  | .uioStmDir _ => true
  | .uioStmEnd => true
  | .setSpeed _ _ => true

/-- A well-formed instruction: what an encoding can hold. -/
abbrev Instr.WellFormed (i : Instr) : Prop := i.wellFormed = true

end Sys2Proof
end

