-- ==== Sys2Proof/Decode.lean ====
section
/-! DEFINITION. Decoding of the three encoding spaces, total, rejecting by name; the encoder; and the reading of the opcode
table's own words (30_encoding.md R80 to R92). -/

namespace Sys2Proof

/-- Why an encoding is none of the twelve instructions. The reserved encodings are those of R92. -/
inductive DecodeReject where
  /-- No request has this op code (R91). -/
  | noSuchRequest (op : Byte)
  /-- The operands are not those of the record's op code (R22). -/
  | operandsDoNotFit (op : Byte)
  /-- An operand longer than `LEN_MAX` (R22). -/
  | operandTooLong
  /-- An empty packet (R92). -/
  | emptyPacket
  /-- A stream packet with no payload (R92). -/
  | emptyStream
  /-- A stream packet of more than 31 payload bytes (R81). -/
  | streamTooLong
  /-- An IO stream other than the two chip-select frames (R82, R92). -/
  | reservedUioStream
  /-- A speed packet of another form than R86 (R92). -/
  | reservedSpeedPacket
  /-- A packet with another opcode byte (R92). -/
  | reservedOpcode (b : Byte)
  /-- A UIO byte that is none of the three sub-commands (R82, R92). -/
  | reservedSubCommand (b : Byte)
deriving DecidableEq, Repr

/-- The chip-select assert frame (R83). -/
def assertFrame : Bytes :=
  [Config.opUioStream, Config.uioOut ||| Config.csPatOn.setWidth 8, Config.uioDir ||| Config.csDirMask.setWidth 8,
    Config.uioEnd]

/-- The chip-select deassert frame (R84). -/
def deassertFrame : Bytes :=
  [Config.opUioStream, Config.uioOut ||| Config.csPatOff.setWidth 8, Config.uioEnd]

/-- Byte 1 of the speed packet, `01100dmm` (R86, R89). -/
def speedByte (mode : BitVec 2) (dbl : Bool) : Byte :=
  Config.i2cStmSet ||| (if dbl then 0x04#8 else 0x00#8) ||| mode.setWidth 8

/-- The request records: the op codes of R91 with the operands of R22. -/
def decodeRequest (r : ReqRecord) : Except DecodeReject Instr :=
  if r.op = 0x01#8 then
    match r.args with
    | .exchange out cap => if out.length ≤ Config.lenMax then .ok (.xchg out cap) else .error .operandTooLong
    | _ => .error (.operandsDoNotFit r.op)
  else if r.op = 0x02#8 then
    match r.args with
    | .busSpeed mode dbl => .ok (.speed mode dbl)
    | _ => .error (.operandsDoNotFit r.op)
  else if r.op = 0x10#8 then
    match r.args with
    | .oneByte b => .ok (.rev b)
    | _ => .error (.operandsDoNotFit r.op)
  else if r.op = 0x11#8 then
    match r.args with
    | .oneFlag sel => .ok (.csf sel)
    | _ => .error (.operandsDoNotFit r.op)
  else if r.op = 0x12#8 then
    match r.args with
    | .manyBytes payload => if payload.length ≤ Config.lenMax then .ok (.tile payload) else .error .operandTooLong
    | _ => .error (.operandsDoNotFit r.op)
  else .error (.noSuchRequest r.op)

/-- The body of a speed packet: the set-speed command and the end marker (R86). -/
def decodeSpeed (body : Bytes) : Except DecodeReject Instr :=
  match body with
  | [b, e] =>
    if b &&& 0xF8#8 = Config.i2cStmSet ∧ e = Config.i2cStmEnd then
      .ok (.setSpeed (b.extractLsb' 0 2) (b.getLsbD 2))
    else .error .reservedSpeedPacket
  | _ => .error .reservedSpeedPacket

/-- A packet is a whole transfer, read by its first byte (R80, R90); the payload of a stream packet is never searched
for opcodes. -/
def decodePacket (p : Bytes) : Except DecodeReject Instr :=
  match p with
  | [] => .error .emptyPacket
  | op :: body =>
    if op = Config.opSpiStream then
      if body.length = 0 then .error .emptyStream
      else if Config.payMax < body.length then .error .streamTooLong
      else .ok (.spiStream body)
    else if op = Config.opUioStream then
      if op :: body = assertFrame then .ok .csAssert
      else if op :: body = deassertFrame then .ok .csDeassert
      else .error .reservedUioStream
    else if op = Config.opI2cStream then decodeSpeed body
    else .error (.reservedOpcode op)

/-- A byte inside an IO stream, by the match and mask columns of R82. -/
def decodeSubCommand (b : Byte) : Except DecodeReject Instr :=
  if b &&& 0xC0#8 = Config.uioOut then .ok (.uioStmOut (b.extractLsb' 0 6))
  else if b &&& 0xC0#8 = Config.uioDir then .ok (.uioStmDir (b.extractLsb' 0 6))
  else if b = Config.uioEnd then .ok .uioStmEnd
  else .error (.reservedSubCommand b)

/-- Decoding, total on every code of every space. -/
def decode : Code → Except DecodeReject Instr
  | .request r => decodeRequest r
  | .packet p => decodePacket p
  | .subCommand b => decodeSubCommand b

/-- Encoding, from the same tables (R81 to R86, R91). -/
def encode : Instr → Code
  | .xchg out cap => .request ⟨0x01#8, .exchange out cap⟩
  | .speed mode dbl => .request ⟨0x02#8, .busSpeed mode dbl⟩
  | .rev b => .request ⟨0x10#8, .oneByte b⟩
  | .csf sel => .request ⟨0x11#8, .oneFlag sel⟩
  | .tile payload => .request ⟨0x12#8, .manyBytes payload⟩
  | .spiStream wire => .packet (Config.opSpiStream :: wire)
  | .csAssert => .packet assertFrame
  | .csDeassert => .packet deassertFrame
  | .uioStmOut v => .subCommand (Config.uioOut ||| v.setWidth 8)
  | .uioStmDir v => .subCommand (Config.uioDir ||| v.setWidth 8)
  | .uioStmEnd => .subCommand Config.uioEnd
  | .setSpeed mode dbl => .packet [Config.opI2cStream, speedByte mode dbl, Config.i2cStmEnd]

/-- The record of an op code whose operands are all zero; none for a byte that is no request op code. -/
def zeroRecord (op : Byte) : Option ReqRecord :=
  if op = 0x01#8 then some ⟨op, .exchange [] 0#32⟩
  else if op = 0x02#8 then some ⟨op, .busSpeed 0#2 false⟩
  else if op = 0x10#8 then some ⟨op, .oneByte 0#8⟩
  else if op = 0x11#8 then some ⟨op, .oneFlag false⟩
  else if op = 0x12#8 then some ⟨op, .manyBytes []⟩
  else none

/-- The `n` bytes of a number, the most significant first. -/
def bytesOf : Nat → Nat → Bytes
  | 0, _ => []
  | n + 1, w => BitVec.ofNat 8 (w / 256 ^ n) :: bytesOf n w

/-- The code that stands for a word of `nbits` bits of the opcode table. The table writes a row as one number whose
most significant byte is the byte sent first, as CS_ASSERT's 0xABB67F20. A one-byte word is a request op code (operands
all zero), the stream marker (shortest packet, one zero byte), or else a UIO sub-command (log 3). -/
def tableCode (nbits w : Nat) : Code :=
  match bytesOf ((nbits + 7) / 8) w with
  | [b] =>
    if b = Config.opSpiStream then .packet [b, 0x00#8]
    else
      match zeroRecord b with
      | some r => .request r
      | none => .subCommand b
  | p => .packet p

/-- The instruction the decoder reads from a word numbered as spec/opcode_table.json numbers it. -/
def decodeTableWord (nbits w : Nat) : Option Instr :=
  match decode (tableCode nbits w) with
  | .ok i => some i
  | .error _ => none

end Sys2Proof
end

