-- ==== Sys2Proof/Machine/State.lean ====
section
/-! DEFINITION. The state of the machine: the block's record of 10_state.md R25, the far end of 20_memory.md R58 and R59, and
the ports with the two parties outside; the reasons a step can stop; the state right after reset. Plain data throughout. -/

namespace Sys2Proof.Machine

/-- The sequencer states (R25, R26). -/
inductive Fsm where
  | idle
  | csOn
  | tx
  | rx
  | csOff
  | spd
  | resp
deriving DecidableEq, Repr

/-- The error of a request (60_exceptions.md R210). -/
inductive Error where
  | transportFailed (code : Config.ErrCode)
  | transportTimedOut
  | transportShortWrite (m : Nat)
  | protocolShortReply (m : Nat)
deriving DecidableEq, Repr

/-- The response of a request (R23). -/
inductive Response where
  | okBytes (data : Bytes)
  | okPackets (pkts : List Bytes)
  | err (e : Error)
deriving DecidableEq, Repr

/-- The block's record of the chip-select level it last set (R25, R30). -/
inductive CsRecord where
  | unknown
  | deasserted
  | asserted
deriving DecidableEq, Repr

/-- The result of an OUT transfer (R24). -/
inductive OutResult where
  | done (m : Nat)
  | fail (code : Config.ErrCode)
  | timedOut
deriving DecidableEq, Repr

/-- The result of an IN transfer (R24). -/
inductive InResult where
  | data (bytes : Bytes)
  | fail (code : Config.ErrCode)
  | timedOut
deriving DecidableEq, Repr

/-- What the transport will do with one transfer: move up to `m` bytes of it, fail, or time out. A transfer of `len`
bytes answered `upTo m` moves `min m len`, so every answer keeps the bounds of R24 (log 5). -/
inductive Answer where
  | upTo (m : Nat)
  | fail (code : Config.ErrCode)
  | timedOut
deriving DecidableEq, Repr

/-- One transfer as a bus monitor sees it, in the listing form of R94: what was issued and its result. -/
inductive Transfer where
  | out (bytes : Bytes) (r : OutResult)
  | inp (n : Nat) (r : InResult)
deriving DecidableEq, Repr

/-- The block's own record, exactly the fields of R25. -/
structure Block where
  /-- Sequencer state. -/
  fsm : Fsm
  /-- The `out` operand of the XCHG in progress. -/
  obuf : Bytes
  /-- The `cap` operand of the XCHG in progress. -/
  cap : BitVec 32
  /-- Number of stream packets whose reply has been taken. -/
  k : Nat
  /-- Logical reply bytes kept so far. -/
  acc : Bytes
  /-- First error of the request in progress, or NONE. -/
  err : Option Error
  /-- Record of the chip-select level last set. -/
  cs : CsRecord
  /-- The last bus speed set successfully, or UNSET. -/
  spd : Option (BitVec 2 × Bool)
  /-- The operands of the SPEED in progress. -/
  preq : BitVec 2 × Bool
  /-- The response being handed back. -/
  rsp : Response
deriving DecidableEq, Repr

/-- The bus speed the far end was last given (R202). -/
inductive BusSetting where
  | bridgeDefault
  | set (mode : BitVec 2) (dbl : Bool)
deriving DecidableEq, Repr

/-- What answers on the SPI bus: an environment that draws reply bytes (a script of wire bytes, then free values; R60),
or one of the two reference environments of 95_test_vectors.md section 0, which are no rules of the block (log 25). -/
inductive Device where
  | script (miso : Bytes)
  | echo
  | flash (sr : Byte) (id : Byte × Byte × Byte)
deriving DecidableEq, Repr

/-- The far end: the bridge and the SPI device behind the transport (R58, R59). -/
structure FarEnd where
  /-- Bytes the transport has delivered and the far end has not run (log 22). -/
  rx : Bytes
  /-- An IO stream is open: `rx` holds sub-commands, not a packet (R82; log 15). -/
  uioOpen : Bool
  /-- Output latch of the lines D5..D0 (R82). -/
  lines : BitVec 6
  /-- Direction of the lines D5..D0, 1 an output (R82). -/
  dirs : BitVec 6
  /-- The SPI device's chip-select level, true when selected (R59). -/
  selected : Bool
  /-- The bus speed in force, as last received (R202). -/
  speed : BusSetting
  /-- Reply bytes held for the next IN transfer (R58). -/
  reply : Bytes
  /-- Wire bytes shifted since the select in force (R59). -/
  window : Bytes
  /-- The completed SPI command sequences, oldest first (R59, R147). -/
  seqs : List Bytes
  /-- What answers on the SPI bus (R60). -/
  device : Device
deriving DecidableEq, Repr

/-- The whole machine. -/
structure State where
  /-- The block (R25). -/
  st : Block
  /-- The far end (R58, R59). -/
  far : FarEnd
  /-- The requests the requester still presents on REQ, the first one now (R20, R94). -/
  req : List ReqRecord
  /-- The requester is ready to take a response on RSP (R20, R168). -/
  rspReady : Bool
  /-- The responses handed back, oldest first. -/
  rsps : List Response
  /-- The transport's answers to the OUT transfers to come; none left means no result yet (R54, I13). -/
  outs : List Answer
  /-- The transport's answers to the IN transfers to come; none left means no result yet (R55, I13). -/
  ins : List Answer
  /-- None when the transport is open and claimed, else the code it fails every transfer with (R57). -/
  session : Option Config.ErrCode
  /-- The reset input (R240). -/
  rst : Bool
  /-- The transfers issued with their results, oldest first (R6, R70). -/
  trace : List Transfer
  /-- The model's own counter of free values (log 26). -/
  draws : Nat
deriving DecidableEq, Repr

/-- "No behaviour of the block is a `fault`" (93_implementation_defined.md): there is none, so no step ends in one. -/
inductive Fault where
deriving DecidableEq, Repr

/-- The reasons a step can be refused. -/
inductive Refusal where
  /-- Raised by `exec` for an instruction without a meaning; safe. No instruction of this model is one. -/
  | notModelled (mnemonic : String)
  /-- Raised by `step` in IDLE for a record on REQ that is no request (R22, R91: it cannot be presented); safe. -/
  | notARequest (why : DecodeReject)
  /-- Raised by `step` for a packet at the far end that is none of the four kinds (R92, I8), and by the meaning of
  SPI_STREAM for a payload that is not 1 to 31 bytes; safe. -/
  | reservedPacket (why : DecodeReject)
  /-- Raised by `step` for a byte of an open IO stream that is no sub-command (R82, R92); safe. -/
  | reservedSubCommand (why : DecodeReject)
  /-- Raised by the meaning of UIO_STM_END when bytes follow the end marker (R92); safe. -/
  | bytesAfterEnd (rest : Bytes)
deriving DecidableEq, Repr

/-- The reset values of R25 (R240). -/
def Block.reset : Block where
  fsm := .idle
  obuf := []
  cap := 0#32
  k := 0
  acc := []
  err := none
  cs := .unknown
  spd := none
  preq := (0#2, false)
  rsp := .okBytes []

/-- The far end when the machine starts: the chip-select level is a free value (I10, N5; log 9), the speed is the bridge's
own (R244), no line is an output (log 9), and nothing has been shifted yet (log 20). -/
def FarEnd.initial : FarEnd where
  rx := []
  uioOpen := false
  lines := 0#6
  dirs := 0#6
  selected := Config.freeLevel 0
  speed := .bridgeDefault
  reply := []
  window := []
  seqs := []
  device := .script []

/-- The machine right after reset (R240), with nothing presented and no transfer answered (log 20). -/
def State.reset : State where
  st := Block.reset
  far := FarEnd.initial
  req := []
  rspReady := true
  rsps := []
  outs := []
  ins := []
  session := none
  rst := false
  trace := []
  draws := 1

end Sys2Proof.Machine
end

