-- ==== Sys2Proof/Machine/Operands.lean ====
section
/-! DEFINITION. Operand assembly: the bit reversal, the chip-select frames, tiling, the inbound transform, the speed packet
and the quantities of an exchange (40_bit_reversal.md, 41_framer.md, 43_transceiver.md R161, 44_bus_config.md R200). -/

namespace Sys2Proof.Machine

/-- `REV8` (R110): bit `i` of the result is bit `7 - i` of `b`, written from bit 7 down. -/
def rev8 (b : Byte) : Byte :=
  BitVec.ofBool (b.getLsbD 0) ++ BitVec.ofBool (b.getLsbD 1) ++ BitVec.ofBool (b.getLsbD 2) ++
    BitVec.ofBool (b.getLsbD 3) ++ BitVec.ofBool (b.getLsbD 4) ++ BitVec.ofBool (b.getLsbD 5) ++
    BitVec.ofBool (b.getLsbD 6) ++ BitVec.ofBool (b.getLsbD 7)

/-- `csframe(sel)` (R121). -/
def csframe (sel : Bool) : Bytes := if sel then assertFrame else deassertFrame

/-- The payload bytes of stream packet `k` of `x`: `x[31k : 31k+31]` (R88, R123). -/
def chunk (x : Bytes) (k : Nat) : Bytes := (x.drop (Config.payMax * k)).take Config.payMax

/-- Stream packet `k` of `x` (R88, R123). -/
def streamPacket (x : Bytes) (k : Nat) : Bytes := Config.opSpiStream :: (chunk x k).map rev8

/-- `n = ceil(L / 31)`, the number of stream packets of a payload of length `L` (R124, R161). -/
def packetCount (len : Nat) : Nat := (len + (Config.payMax - 1)) / Config.payMax

/-- `tile(x)` (R123). -/
def tile (x : Bytes) : List Bytes := (List.range (packetCount x.length)).map (streamPacket x)

/-- `extract(replies)`, the inbound transform (R125). -/
def extract (replies : List Bytes) : Bytes := (replies.map (List.map rev8)).flatten

/-- `n_k`, the payload bytes of stream packet `k` (R161). -/
def payloadCount (x : Bytes) (k : Nat) : Nat := (streamPacket x k).length - 1

/-- `keep = min(cap, L)`, the reply bytes the response will hold (R161). -/
def keepCount (cap : BitVec 32) (len : Nat) : Nat := min cap.toNat len

/-- The speed packet of (mode, dbl) (R86, R200). -/
def speedPacket (mode : BitVec 2) (dbl : Bool) : Bytes :=
  [Config.opI2cStream, Config.i2cStmSet ||| (if dbl then 0x04#8 else 0x00#8) ||| mode.setWidth 8, Config.i2cStmEnd]

/-- `accumulate(b)` over the bytes kept so far (R165): append in arrival order, bit-reversed, up to `keep`. -/
def accumulate (keep : Nat) (acc : Bytes) : Bytes → Bytes
  | [] => acc
  | y :: ys => accumulate keep (if acc.length < keep then acc ++ [rev8 y] else acc) ys

end Sys2Proof.Machine
end

