-- ==== Sys2Proof/Machine/Flags.lean ====
section
/-! DEFINITION. Status: transfer results, the error of a result, its kind and cause code, and the two status records
(60_exceptions.md R210 to R213, 42_chip_select.md R141 and R142, 44_bus_config.md R200). -/

namespace Sys2Proof.Machine

/-- The result of an OUT transfer of `len` bytes under the transport's answer (R24, R54). -/
def outResult (a : Answer) (len : Nat) : OutResult :=
  match a with
  | .upTo m => .done (min m len)
  | .fail c => .fail c
  | .timedOut => .timedOut

/-- The result of an IN transfer of `n` bytes under the transport's answer, with the far end holding `held`
(R24, R55): never more than `n` bytes. -/
def inResult (a : Answer) (n : Nat) (held : Bytes) : InResult :=
  match a with
  | .upTo m => .data (held.take (min m n))
  | .fail c => .fail c
  | .timedOut => .timedOut

/-- A full reply to an IN transfer of `n` bytes, the one result that is success (R55). -/
def InResult.isFull (n : Nat) : InResult → Bool
  | .data b => decide (b.length = n)
  | .fail _ => false
  | .timedOut => false

/-- `err_of_out` (R211); called only on a result that is not a full `Done`. -/
def errOfOut : OutResult → Error
  | .done m => .transportShortWrite m
  | .fail c => .transportFailed c
  | .timedOut => .transportTimedOut

/-- `err_of_in` (R211), with the short reply of R164. -/
def errOfIn : InResult → Error
  | .data b => .protocolShortReply b.length
  | .fail c => .transportFailed c
  | .timedOut => .transportTimedOut

/-- The kinds of R210. -/
inductive ErrorKind where
  | transportError
  | protocolError
deriving DecidableEq, Repr

/-- The kind of an error (R210). -/
def errorKind : Error → ErrorKind
  | .transportFailed _ => .transportError
  | .transportTimedOut => .transportError
  | .transportShortWrite _ => .transportError
  | .protocolShortReply _ => .protocolError

/-- The cause code of an error (R210). -/
def causeCode : Error → Nat
  | .transportFailed _ => 1
  | .transportTimedOut => 2
  | .transportShortWrite _ => 3
  | .protocolShortReply _ => 4

/-- `st.err` after `raise e`: the first error wins (R213). -/
def firstError (old : Option Error) (e : Error) : Option Error :=
  match old with
  | none => some e
  | some f => some f

/-- `st.cs` after a chip-select frame of `len` bytes meant to set `level` (R141, R142). -/
def csAfter (r : OutResult) (len : Nat) (level : CsRecord) : CsRecord :=
  if r = .done len then level else .unknown

/-- `st.spd` after the speed packet of (mode, dbl) (R200). -/
def spdAfter (r : OutResult) (mode : BitVec 2) (dbl : Bool) : Option (BitVec 2 × Bool) :=
  if r = .done (speedPacket mode dbl).length then some (mode, dbl) else none

/-- The response of an exchange from its status (R166). -/
def exchangeResponse (err : Option Error) (acc : Bytes) : Response :=
  match err with
  | none => .okBytes acc
  | some e => .err e

end Sys2Proof.Machine
end

