-- ==== Sys2Proof/Machine/FarEnd.lean ====
section
/-! DEFINITION. The far end's operations: what it captures while it shifts, its chip-select level and the sequences it
completes, its output lines, its speed, and what is left of it after a transfer that did not succeed
(20_memory.md R56 to R60, 30_encoding.md R82 to R85, 44_bus_config.md R202). -/

namespace Sys2Proof.Machine

/-- FLASH's logical reply to the last of the logical bytes `x` shifted in the window so far
(95_test_vectors.md section 0). -/
def flashReply (sr : Byte) (id : Byte × Byte × Byte) (x : Bytes) : Byte :=
  match x with
  | [] => 0xFF#8
  | [_] => 0xFF#8
  | x0 :: _ :: more =>
    if x0 = 0x05#8 then sr
    else if x0 = 0x9F#8 then
      match more.length with
      | 0 => id.1
      | 1 => id.2.1
      | 2 => id.2.2
      | _ => 0xFF#8
    else 0xFF#8

/-- FLASH's status byte after the command of logical bytes `x`, which takes effect on deselect
(95_test_vectors.md section 0). The section lists the bare commands only: that bytes shifted after `06`, `04`, `C7` or
`01 s` in the same window are ignored, and that `01` alone does nothing, is the model's choice (DESIGN CHOICE, log 25). -/
def flashStatusAfter (sr : Byte) (x : Bytes) : Byte :=
  match x with
  | [] => sr
  | x0 :: operands =>
    if x0 = 0x06#8 then sr ||| 0x02#8
    else if x0 = 0x04#8 then sr &&& 0xFD#8
    else if x0 = 0x01#8 then
      match operands with
      | v :: _ => if sr.getLsbD 1 then v &&& 0xFC#8 else sr
      | [] => sr
    else if x0 = 0xC7#8 then
      if sr.getLsbD 1 then (sr ||| 0x01#8) &&& 0xFD#8 else sr
    else sr

/-- The wire byte the far end captures while it shifts out `w` (R58, R60); `d` is where a free value is drawn. FLASH
answers only inside a select window. -/
def FarEnd.captured (d : Nat) (f : FarEnd) (w : Byte) : Byte :=
  match f.device with
  | .echo => w
  | .script (r :: _) => r
  | .script [] => Config.freeReply d
  | .flash sr id =>
    if f.selected then rev8 (flashReply sr id ((f.window ++ [w]).map rev8)) else Config.freeReply d

/-- The device after one byte: a script moves on. -/
def Device.afterByte : Device → Device
  | .script miso => .script miso.tail
  | .echo => .echo
  | .flash sr id => .flash sr id

/-- The device after a select window of the wire bytes `window` has closed. -/
def Device.afterWindow (window : Bytes) : Device → Device
  | .script miso => .script miso
  | .echo => .echo
  | .flash sr id => .flash (flashStatusAfter sr (window.map rev8)) id

/-- Shift one wire byte onto the SPI bus, full duplex (R58); it joins the open select window (R59). -/
def FarEnd.shiftByte (d : Nat) (f : FarEnd) (w : Byte) : FarEnd :=
  { f with
    reply := f.reply ++ [f.captured d w]
    window := if f.selected then f.window ++ [w] else f.window
    device := f.device.afterByte }

/-- Shift wire bytes in order (R58). -/
def FarEnd.shiftBytes (d : Nat) (f : FarEnd) : Bytes → FarEnd
  | [] => f
  | w :: ws => FarEnd.shiftBytes (d + 1) (f.shiftByte d w) ws

/-- A stream packet's wire bytes at the far end: shifted in order, and the bytes captured are held for the next IN
transfer, in place of any held before (R58; log 12). -/
def FarEnd.stream (d : Nat) (ws : Bytes) (f : FarEnd) : FarEnd :=
  FarEnd.shiftBytes d { f with reply := [] } ws

/-- Set the chip-select level. Selecting opens a window; deselecting closes it, and its bytes are one SPI command
sequence (R59). Setting the level it already has changes nothing (R247; log 13). -/
def FarEnd.setLevel (level : Bool) (f : FarEnd) : FarEnd :=
  match f.selected, level with
  | false, true => { f with selected := true, window := [] }
  | true, false =>
    { f with
      selected := false
      window := []
      seqs := f.seqs ++ [f.window]
      device := f.device.afterWindow f.window }
  | false, false => f
  | true, true => f

/-- Drive the output lines to `v` (R82). Line D0, where it is an output, is the active-low chip-select (R85; log 14). -/
def FarEnd.driveLines (v : BitVec 6) (f : FarEnd) : FarEnd :=
  if f.dirs.getLsbD 0 then ({ f with lines := v } : FarEnd).setLevel (!v.getLsbD 0) else { f with lines := v }

/-- Set lines to output where `v` has a 1 (R82), and to input where it has a 0, of which R82 says nothing (DESIGN CHOICE,
log 31). D0 made an output drives the chip-select level; D0 no longer an output
leaves a level the spec does not give, a free value drawn at `d` (R85; log 14). -/
def FarEnd.setDirs (d : Nat) (v : BitVec 6) (f : FarEnd) : FarEnd :=
  if v.getLsbD 0 then ({ f with dirs := v } : FarEnd).setLevel (!f.lines.getLsbD 0)
  else if f.dirs.getLsbD 0 then ({ f with dirs := v } : FarEnd).setLevel (Config.freeLevel d)
  else { f with dirs := v }

/-- End of the IO stream (R82). -/
def FarEnd.endStream (f : FarEnd) : FarEnd := { f with uioOpen := false }

/-- The assert frame at the far end: its three sub-commands (R82, R83), and the device is selected (R59). -/
def FarEnd.assertSelect (d : Nat) (f : FarEnd) : FarEnd :=
  (((f.driveLines Config.csPatOn).setDirs d Config.csDirMask).endStream).setLevel true

/-- The deassert frame at the far end: its two sub-commands (R82, R84), and the device is deselected (R59). -/
def FarEnd.deassertSelect (f : FarEnd) : FarEnd :=
  ((f.driveLines Config.csPatOff).endStream).setLevel false

/-- The speed packet at the far end (R202). -/
def FarEnd.setSpeed (mode : BitVec 2) (dbl : Bool) (f : FarEnd) : FarEnd := { f with speed := .set mode dbl }

/-- The bus speed in force (R202): the last one received, or `BRIDGE_DEFAULT_SPEED`; its meaning is `SPEED_MAP` (R201). -/
def FarEnd.speedInForce (f : FarEnd) : Config.BusBehaviour :=
  match f.speed with
  | .bridgeDefault => Config.bridgeDefaultSpeed
  | .set mode dbl => Config.speedMap mode dbl

/-- A whole packet at the far end, by its kind; a reserved packet is given no meaning (R92). -/
def FarEnd.runPacket (d : Nat) (p : Bytes) (f : FarEnd) : FarEnd :=
  match decodePacket p with
  | .ok (.spiStream ws) => f.stream d ws
  | .ok .csAssert => f.assertSelect d
  | .ok .csDeassert => f.deassertSelect
  | .ok (.setSpeed mode dbl) => f.setSpeed mode dbl
  | _ => f

/-- The reply held, after a transfer that did not succeed or was cut off: some first bytes of it, none and all among the
possibilities, are used up, by a free value drawn at `d` (R214, I9; log 10, log 12, log 30). -/
def FarEnd.loseReply (d : Nat) (f : FarEnd) : FarEnd := { f with reply := f.reply.drop (Config.freeTaken d) }

/-- The far end after a packet whose transfer did not succeed and of which only `got` bytes, fewer than all, arrived.
Nothing arrived changes nothing. A stream packet's payload bytes that arrived are shifted (I9); the opcode alone shifts
nothing. After part of a chip-select frame the
level and the lines are free values (R32, I10). Part of a speed packet changes no speed; the whole of it may have arrived
(R248; log 10). -/
def FarEnd.runPart (d got : Nat) (p : Bytes) (f : FarEnd) : FarEnd :=
  match p with
  | [] => f
  | op :: body =>
    if got = 0 then f
    else if op = Config.opSpiStream then
      if got = 1 then f else f.stream d (body.take (got - 1))
    else if op = Config.opUioStream then
      ({ f with lines := Config.freeLines d, dirs := Config.freeDirs d } : FarEnd).setLevel (Config.freeLevel d)
    else f

/-- The far end after a packet whose transfer failed, timed out or was short: any number of its bytes, up to all of
them, may have arrived, and any of the reply held may be gone (R56, R214, I9; log 10). Nothing is left waiting in `rx` by
it. -/
def FarEnd.afterFailed (d : Nat) (p : Bytes) (f : FarEnd) : FarEnd :=
  { (if p.length ≤ Config.freeArrived d then (f.loseReply d).runPacket d p
      else (f.loseReply d).runPart d (Config.freeArrived d) p) with
    rx := f.rx
    uioOpen := false }

end Sys2Proof.Machine
end

