-- ==== Sys2Proof/Machine/Ops.lean ====
section
/-! DEFINITION. The named operations over State: one update per field or group of fields, the two transfers, taking an
error (60_exceptions.md R213, R214: the block's trap entry) and the return from it (R216), and reset
(70_reset_and_hazards.md R240). -/

namespace Sys2Proof.Machine

/-- `fsm <- q` (R11). -/
def State.setFsm (q : Fsm) (s : State) : State := { s with st := { s.st with fsm := q } }

/-- `st.cs <- c`. -/
def State.setCs (c : CsRecord) (s : State) : State := { s with st := { s.st with cs := c } }

/-- `st.spd <- v`. -/
def State.setSpd (v : Option (BitVec 2 × Bool)) (s : State) : State := { s with st := { s.st with spd := v } }

/-- `st.rsp <- r`. -/
def State.setRsp (r : Response) (s : State) : State := { s with st := { s.st with rsp := r } }

/-- `raise e` on the record: the first error wins (R213). -/
def State.raise (e : Error) (s : State) : State := { s with st := { s.st with err := firstError s.st.err e } }

/-- The fields an accepted XCHG loads (R160). -/
def State.loadExchange (out : Bytes) (cap : BitVec 32) (s : State) : State :=
  { s with st := { s.st with obuf := out, cap := cap, k := 0, acc := [], err := none } }

/-- The fields an accepted SPEED loads (R200); `st.err` among them (log 29). -/
def State.loadSpeed (mode : BitVec 2) (dbl : Bool) (s : State) : State :=
  { s with st := { s.st with preq := (mode, dbl), err := none } }

/-- A reply taken: its bytes accumulated and `st.k` advanced by one (R164, R165). -/
def State.takeReply (b : Bytes) (s : State) : State :=
  { s with
    st := { s.st with
      acc := accumulate (keepCount s.st.cap s.st.obuf.length) s.st.acc b
      k := s.st.k + 1 } }

/-- The far end changed. -/
def State.setFar (f : FarEnd) (s : State) : State := { s with far := f }

/-- The requests still presented. -/
def State.setReq (r : List ReqRecord) (s : State) : State := { s with req := r }

/-- The transport's OUT answers still to come. -/
def State.setOuts (a : List Answer) (s : State) : State := { s with outs := a }

/-- The transport's IN answers still to come. -/
def State.setIns (a : List Answer) (s : State) : State := { s with ins := a }

/-- A transfer seen on the transport port. -/
def State.logTransfer (t : Transfer) (s : State) : State := { s with trace := s.trace ++ [t] }

/-- A response taken on RSP. -/
def State.logResponse (r : Response) (s : State) : State := { s with rsps := s.rsps ++ [r] }

/-- The counter of free values moved on. -/
def State.addDraws (n : Nat) (s : State) : State := { s with draws := s.draws + n }

/-- `respond(r)`: load the response register and enter RESP (R11). -/
def State.respond (r : Response) (s : State) : State := (s.setRsp r).setFsm .resp

/-- TAKING AN ERROR, the block's trap entry (R213, R214): the first error is recorded and the block moves on to `q`,
CS_OFF from CS_ON, TX and RX, RESP from CS_OFF and SPD (R212). Nothing else is saved. -/
def State.abort (e : Error) (q : Fsm) (s : State) : State := (s.raise e).setFsm q

/-- THE RETURN, for every request: the requester takes the response and the block goes to IDLE; `st.err` keeps its value
(R168, R216). -/
def State.handBack (s : State) : State := (s.logResponse s.st.rsp).setFsm .idle

/-- The packet that the block sends in its sequencer state (R141, R142, R163, R200); none where it sends none. -/
def Block.outPacket (b : Block) : Option Bytes :=
  match b.fsm with
  | .csOn => some (csframe true)
  | .tx => some (streamPacket b.obuf b.k)
  | .csOff => some (csframe false)
  | .spd => some (speedPacket b.preq.1 b.preq.2)
  | .idle => none
  | .rx => none
  | .resp => none

/-- What a reset leaves at the far end (R241, R248; D25: unknown, and left so). In a state that sends a packet, the packet
may have been issued and cut off (R20), so any part of it may have arrived; in RX the read may have used up any of the reply
held (log 30). Elsewhere no transfer is in progress, and none while something still waits at the far end (log 22). -/
def State.farAfterReset (s : State) : FarEnd :=
  match s.far.rx with
  | _ :: _ => s.far
  | [] =>
    match s.st.outPacket with
    | some p => s.far.afterFailed s.draws p
    | none => if s.st.fsm = .rx then s.far.loseReply s.draws else s.far

/-- Reset (R240): every field of `st` takes its reset value; no transfer, no response (R241). A transfer in progress is
abandoned, its effect at the far end open; it is not listed in `trace`, since it has no result (DESIGN CHOICE, log 30).
The ports keep what they hold; the reset input is then released (log 19). -/
def State.assertReset (s : State) : State :=
  { s with
    st := Block.reset
    rst := false
    far := s.farAfterReset
    draws := s.draws + (Config.pktMax + 1) }

/-- `REQ` is ready only in IDLE (R20). -/
def State.reqReady (s : State) : Bool := decide (s.st.fsm = .idle)

/-- A request is accepted in IDLE; in any other state it waits, and nothing happens (R20, R219, R246; log 23). -/
def State.acceptInIdle (s accepted : State) : Host.Outcome State Fault Refusal :=
  if s.reqReady then .next accepted else .next s

/-- The transport's next answer to an OUT transfer: `Fail` while the session is not open (R57), else the next of the
script, else none yet (R54). -/
def State.answerOut (s : State) : Option (Answer × State) :=
  match s.session with
  | some c => some (.fail c, s)
  | none =>
    match s.outs with
    | [] => none
    | a :: more => some (a, s.setOuts more)

/-- The transport's next answer to an IN transfer (R55, R57). -/
def State.answerIn (s : State) : Option (Answer × State) :=
  match s.session with
  | some c => some (.fail c, s)
  | none =>
    match s.ins with
    | [] => none
    | a :: more => some (a, s.setIns more)

/-- A packet delivered whole: it waits at the far end, which runs it in the same step (log 22); a transfer boundary is a
packet boundary (R90), so an IO stream left open is over. -/
def State.deliver (p : Bytes) (s : State) : State := s.setFar { s.far with rx := p, uioOpen := false }

/-- The far end after a transfer of `p` that did not succeed (R56, I9). -/
def State.deliverFailed (p : Bytes) (s : State) : State :=
  (s.setFar (s.far.afterFailed s.draws p)).addDraws (p.length + 1)

/-- `XferOut(p)` (R54): none while the transport has given no result, else the result and the state it leaves. -/
def State.xferOut (p : Bytes) (s : State) : Option (OutResult × State) :=
  match s.answerOut with
  | none => none
  | some (a, s1) =>
    let r := outResult a p.length
    let s2 := if r = .done p.length then s1.deliver p else s1.deliverFailed p
    some (r, s2.logTransfer (.out p r))

/-- A full reply read: the far end holds it for this one transfer (R58; log 12). -/
def State.useReply (s : State) : State := s.setFar { s.far with reply := [] }

/-- The far end after an IN transfer that failed, timed out or was short: any of the reply held may be used up (R56, R214,
I9; log 12). -/
def State.readFailed (s : State) : State := (s.setFar (s.far.loseReply s.draws)).addDraws 1

/-- `XferIn(n)` (R55): the far end's held reply bytes, as far as the transport moves them. -/
def State.xferIn (n : Nat) (s : State) : Option (InResult × State) :=
  match s.answerIn with
  | none => none
  | some (a, s1) =>
    let r := inResult a n s1.far.reply
    let s2 := if r.isFull n then s1.useReply else s1.readFailed
    some (r, s2.logTransfer (.inp n r))

end Sys2Proof.Machine
end

