-- ==== Sys2Proof/Machine/BitReversal.lean ====
section
/-! DEFINITION. The meaning of REV (40_bit_reversal.md R111). -/

namespace Sys2Proof.Machine

/-- REV `b` (R111): answers `OkBytes([REV8(b)])`; no transfer. -/
def execRev (b : Byte) (s : State) : Host.Outcome State Fault Refusal :=
  s.acceptInIdle (s.respond (.okBytes [rev8 b]))

end Sys2Proof.Machine
end

