-- ==== Sys2Proof/Machine/BusConfig.lean ====
section
/-! DEFINITION. Bus configuration: accepting SPEED, the block's step in SPD (44_bus_config.md R200), and the meaning of the speed
packet at the far end (R202). -/

namespace Sys2Proof.Machine

/-- SPEED `mode`, `dbl` (R200): accepted; the speed packet is the next step. -/
def execSpeed (mode : BitVec 2) (dbl : Bool) (s : State) : Host.Outcome State Fault Refusal :=
  s.acceptInIdle ((s.loadSpeed mode dbl).setFsm .spd)

/-- SPD (R200): send the speed packet; `st.spd` holds the speed on success and UNSET otherwise. -/
def spdStep (s : State) : State :=
  match s.xferOut (speedPacket s.st.preq.1 s.st.preq.2) with
  | none => s
  | some (r, s1) =>
    let s2 := s1.setSpd (spdAfter r s.st.preq.1 s.st.preq.2)
    if r = .done 3 then s2.respond (.okBytes [])
    else
      let s3 := s2.raise (errOfOut r)
      s3.respond (exchangeResponse s3.st.err [])

/-- SET_SPEED at the far end (R86, R202): the speed in force is this one; no reply. -/
def execSetSpeed (mode : BitVec 2) (dbl : Bool) (s : State) : Host.Outcome State Fault Refusal :=
  .next (s.setFar (s.far.setSpeed mode dbl))

end Sys2Proof.Machine
end

