-- ==== Sys2Proof/Machine/ChipSelect.lean ====
section
/-! DEFINITION. The chip-select controller: the block's steps in CS_ON and CS_OFF (42_chip_select.md R141, R142;
43_transceiver.md R162, R166), and the meanings of the two frames at the far end (R59, R83, R84). -/

namespace Sys2Proof.Machine

/-- CS_ON (R141, R162): the assert action, then TX, or CS_OFF when there is no packet or the frame failed. -/
def csOnStep (s : State) : State :=
  match s.xferOut (csframe true) with
  | none => s
  | some (r, s1) =>
    let s2 := s1.setCs (csAfter r 4 .asserted)
    if r = .done 4 then s2.setFsm (if 0 < packetCount s.st.obuf.length then .tx else .csOff)
    else s2.abort (errOfOut r) .csOff

/-- CS_OFF (R142, R166): the deassert action, then the response. -/
def csOffStep (s : State) : State :=
  match s.xferOut (csframe false) with
  | none => s
  | some (r, s1) =>
    let s2 := s1.setCs (csAfter r 3 .deasserted)
    let s3 := if r = .done 3 then s2 else s2.raise (errOfOut r)
    s3.respond (exchangeResponse s3.st.err s3.st.acc)

/-- CS_ASSERT at the far end (R59, R83): the device is selected; no reply. -/
def execCsAssert (s : State) : Host.Outcome State Fault Refusal :=
  .next ((s.setFar (s.far.assertSelect s.draws)).addDraws 1)

/-- CS_DEASSERT at the far end (R59, R84): the device is deselected; no reply. -/
def execCsDeassert (s : State) : Host.Outcome State Fault Refusal :=
  .next (s.setFar s.far.deassertSelect)

end Sys2Proof.Machine
end

