-- ==== Sys2Proof/Machine/Framer.lean ====
section
/-! DEFINITION. The meanings of CSF and TILE (41_framer.md R120, R122). -/

namespace Sys2Proof.Machine

/-- CSF `sel` (R120): answers the frame; building it is not sending it. -/
def execCsf (sel : Bool) (s : State) : Host.Outcome State Fault Refusal :=
  s.acceptInIdle (s.respond (.okBytes (csframe sel)))

/-- TILE `payload` (R122): answers the stream packets. -/
def execTile (payload : Bytes) (s : State) : Host.Outcome State Fault Refusal :=
  s.acceptInIdle (s.respond (.okPackets (tile payload)))

end Sys2Proof.Machine
end

