-- ==== Sys2Proof/Machine/Transceiver.lean ====
section
/-! DEFINITION. The synchronous SPI transceiver: accepting XCHG, the block's steps in TX, RX and RESP (43_transceiver.md R160 to
R168), and the meaning of the stream packet at the far end (20_memory.md R58). -/

namespace Sys2Proof.Machine

/-- XCHG `out`, `cap` (R160, R169): accepted, its fields loaded, on to CS_ON; its transfers are the steps after. -/
def execXchg (out : Bytes) (cap : BitVec 32) (s : State) : Host.Outcome State Fault Refusal :=
  s.acceptInIdle ((s.loadExchange out cap).setFsm .csOn)

/-- TX (R163): send stream packet `k`. -/
def txStep (s : State) : State :=
  let p := streamPacket s.st.obuf s.st.k
  match s.xferOut p with
  | none => s
  | some (r, s1) => if r = .done p.length then s1.setFsm .rx else s1.abort (errOfOut r) .csOff

/-- RX (R164): read the reply to packet `k`; a short one is discarded. -/
def rxStep (s : State) : State :=
  let n := payloadCount s.st.obuf s.st.k
  match s.xferIn n with
  | none => s
  | some (.data b, s1) =>
    if b.length = n then
      (s1.takeReply b).setFsm (if s.st.k + 1 < packetCount s.st.obuf.length then .tx else .csOff)
    else s1.abort (errOfIn (.data b)) .csOff
  | some (.fail c, s1) => s1.abort (errOfIn (.fail c)) .csOff
  | some (.timedOut, s1) => s1.abort (errOfIn .timedOut) .csOff

/-- RESP (R168): hold until the requester takes the response, then IDLE. -/
def respStep (s : State) : State := if s.rspReady then s.handBack else s

/-- SPI_STREAM at the far end (R58, R81): the wire bytes are shifted in order and as many reply bytes are held. A payload
that is not 1 to 31 bytes is no stream packet (R81, R92). -/
def execSpiStream (wire : Bytes) (s : State) : Host.Outcome State Fault Refusal :=
  if wire.length = 0 then .refused (.reservedPacket .emptyStream)
  else if Config.payMax < wire.length then .refused (.reservedPacket .streamTooLong)
  else .next ((s.setFar (s.far.stream s.draws wire)).addDraws wire.length)

end Sys2Proof.Machine
end

