-- ==== Sys2Proof/Machine/UioStream.lean ====
section
/-! DEFINITION. The meanings of the three sub-commands of an IO stream at the far end (30_encoding.md R82). -/

namespace Sys2Proof.Machine

/-- UIO_STM_OUT `v` (R82): drive the six output lines. -/
def execUioStmOut (v : BitVec 6) (s : State) : Host.Outcome State Fault Refusal :=
  .next (s.setFar (s.far.driveLines v))

/-- UIO_STM_DIR `v` (R82): set lines to output where `v` has a 1. -/
def execUioStmDir (v : BitVec 6) (s : State) : Host.Outcome State Fault Refusal :=
  .next ((s.setFar (s.far.setDirs s.draws v)).addDraws 1)

/-- UIO_STM_END (R82): end of the IO stream; a byte after the end marker has no meaning (R92). -/
def execUioStmEnd (s : State) : Host.Outcome State Fault Refusal :=
  match s.far.rx with
  | [] => .next (s.setFar s.far.endStream)
  | b :: more => .refused (.bytesAfterEnd (b :: more))

end Sys2Proof.Machine
end

