-- ==== Sys2Proof/Machine/Dispatch.lean ====
section
/-! DEFINITION. One arm per instruction, each one call of its meaning. -/

namespace Sys2Proof.Machine

def exec (i : Instr) (s : State) : Host.Outcome State Fault Refusal :=
  match i with
  | .xchg out cap => Sys2Proof.Machine.execXchg out cap s
  | .speed mode dbl => Sys2Proof.Machine.execSpeed mode dbl s
  | .rev b => Sys2Proof.Machine.execRev b s
  | .csf sel => Sys2Proof.Machine.execCsf sel s
  | .tile payload => Sys2Proof.Machine.execTile payload s
  | .spiStream wire => Sys2Proof.Machine.execSpiStream wire s
  | .csAssert => Sys2Proof.Machine.execCsAssert s
  | .csDeassert => Sys2Proof.Machine.execCsDeassert s
  | .uioStmOut v => Sys2Proof.Machine.execUioStmOut v s
  | .uioStmDir v => Sys2Proof.Machine.execUioStmDir v s
  | .uioStmEnd => Sys2Proof.Machine.execUioStmEnd s
  | .setSpeed mode dbl => Sys2Proof.Machine.execSetSpeed mode dbl s

end Sys2Proof.Machine
end

