-- ==== Sys2Proof/Machine/Fetch.lean ====
section
/-! DEFINITION. Fetching: which encoded instruction is next, and the state with it taken from where it stood
(10_state.md R20; 20_memory.md R54; log 22), and its inverse, placing one. -/

namespace Sys2Proof.Machine

/-- What waits at the far end: one sub-command of an open IO stream, or one whole packet (R82, R90). -/
def State.fetchFar (s : State) : Option (Code × State) :=
  match s.far.rx with
  | [] => none
  | b :: more =>
    if s.far.uioOpen then some (.subCommand b, s.setFar { s.far with rx := more })
    else some (.packet (b :: more), s.setFar { s.far with rx := [] })

/-- The request presented on REQ, when the block is ready for it (R20). -/
def State.fetchReq (s : State) : Option (Code × State) :=
  if s.reqReady then
    match s.req with
    | [] => none
    | r :: more => some (.request r, s.setReq more)
  else none

/-- The next instruction: what waits at the far end first, then a request (log 22). -/
def State.fetch (s : State) : Option (Code × State) :=
  match s.fetchFar with
  | some x => some x
  | none => s.fetchReq

/-- Place one encoded instruction where the very next step fetches it: a request on REQ with the block idle and the far
end with nothing waiting, a packet or a sub-command at the far end; the reset input released (log 4). -/
def State.place (c : Code) (s : State) : State :=
  match c with
  | .request r =>
    { s with
      rst := false
      st := { s.st with fsm := .idle }
      far := { s.far with rx := [] }
      req := r :: s.req }
  | .packet p => { s with rst := false, far := { s.far with rx := p, uioOpen := false } }
  | .subCommand b => { s with rst := false, far := { s.far with rx := [b], uioOpen := true } }

/-- The refusal of a code that decodes to nothing (R92, R91). -/
def refusalOf (c : Code) (why : DecodeReject) : Refusal :=
  match c with
  | .request _ => .notARequest why
  | .packet _ => .reservedPacket why
  | .subCommand _ => .reservedSubCommand why

end Sys2Proof.Machine
end

