-- ==== Sys2Proof/Machine/Sequencer.lean ====
section
/-! DEFINITION. The block's own step in each sequencer state (10_state.md R26). -/

namespace Sys2Proof.Machine

/-- One transaction of the block (R6, R26): one transfer, or one response. In IDLE with no request it waits. -/
def blockStep (s : State) : State :=
  match s.st.fsm with
  | .idle => s
  | .csOn => csOnStep s
  | .tx => txStep s
  | .rx => rxStep s
  | .csOff => csOffStep s
  | .spd => spdStep s
  | .resp => respStep s

end Sys2Proof.Machine
end

