-- ==== Sys2Proof/Machine/Run.lean ====
section
/-! DEFINITION. Running an encoded instruction, and the order of what a step does (00_scope.md R6). -/

namespace Sys2Proof.Machine

/-- Run an encoded instruction: decode it, then its meaning; a code that decodes to nothing is refused by name. -/
def runCode (c : Code) (s : State) : Host.Outcome State Fault Refusal :=
  match decode c with
  | .ok i => exec i s
  | .error why => .refused (refusalOf c why)

/-- The far end runs the packet that the block's transfer has just delivered, if there is one. -/
def runDelivered (s : State) : Host.Outcome State Fault Refusal :=
  match s.fetchFar with
  | some (c, s1) => runCode c s1
  | none => .next s

/-- One step: reset if asserted; else the next instruction, from the far end or from REQ; else one transaction of the
block, and in the same step the far end's running of the packet it delivered (R6; log 22). -/
def runStep (s : State) : Host.Outcome State Fault Refusal :=
  if s.rst then .next s.assertReset
  else
    match s.fetch with
    | some (c, s1) => runCode c s1
    | none => runDelivered (blockStep s)

end Sys2Proof.Machine
end

