-- ==== Sys2Proof/Machine/Step.lean ====
section
/-! DEFINITION. One step of the machine (00_scope.md R6), and the placing of one instruction word. -/

namespace Sys2Proof.Machine

/-- One step (R6): `runStep`. -/
def step (s : State) : Host.Outcome State Fault Refusal := runStep s

/-- `s` with the instruction of an opcode-table word placed where the next step fetches it (log 3, log 4). -/
def State.withFetchWord (s : State) (nbits w : Nat) : State := s.place (tableCode nbits w)

end Sys2Proof.Machine
end

