-- ==== Sys2Proof/Safety.lean ====
section
/-! DEFINITION. The terms claims are stated in: the block's invariant (10_state.md R34), a far end with nothing waiting, the
transition and error tables (R26, R212), the sizes of transfers (R53), and the transfers of an exchange that succeeds
(20_memory.md R70). -/

namespace Sys2Proof.Machine

/-- `n`, the stream packets of the XCHG in progress (R25). -/
def Block.packets (b : Block) : Nat := packetCount b.obuf.length

/-- The invariant of R34 items 1 to 3, with the ranges of R25 and R22 and, so that it carries itself from step to step,
the fields as an accept leaves them in CS_ON and SPD. -/
structure Block.Inv (b : Block) : Prop where
  obuf_bounded : b.obuf.length ≤ Config.lenMax
  k_le : b.k ≤ b.packets
  k_lt : b.fsm = .tx ∨ b.fsm = .rx → b.k < b.packets
  acc_le_cap : b.acc.length ≤ min b.cap.toNat (Config.payMax * b.k)
  acc_le_obuf : b.acc.length ≤ b.obuf.length
  selected : b.fsm = .tx ∨ b.fsm = .rx → b.cs = .asserted ∧ b.err = none
  fresh : b.fsm = .csOn → b.k = 0 ∧ b.acc = [] ∧ b.err = none
  speeding : b.fsm = .spd → b.err = none

/-- Nothing waits at the far end, and in RX it holds the reply the block is about to read (R58). -/
structure State.Quiet (s : State) : Prop where
  rx_empty : s.far.rx = []
  reply_held : s.st.fsm = .rx → s.far.reply.length = payloadCount s.st.obuf s.st.k

/-- Every record presented on REQ is one of the five requests (R22: no other can be presented). -/
def State.RequestsValid (s : State) : Prop := ∀ r ∈ s.req, ∃ i, decode (.request r) = .ok i

/-- The state in which the block's own transaction is the next step: no reset, nothing waiting at the far end. -/
def State.BlockMoves (s : State) : Prop := s.rst = false ∧ s.far.rx = []

/-- The "leaves to" column of R26. -/
def Fsm.leavesTo : Fsm → Fsm → Bool
  | .idle, .csOn => true
  | .idle, .spd => true
  | .idle, .resp => true
  | .csOn, .tx => true
  | .csOn, .csOff => true
  | .tx, .rx => true
  | .tx, .csOff => true
  | .rx, .tx => true
  | .rx, .csOff => true
  | .csOff, .resp => true
  | .spd, .resp => true
  | .resp, .idle => true
  | _, _ => false

/-- The errors each state can raise (R212); `sent` is the length of the stream packet in TX and `asked` the length asked
for in RX. -/
def Fsm.mayRaise (q : Fsm) (sent asked : Nat) : Error → Prop
  | .transportFailed _ => q = .csOn ∨ q = .tx ∨ q = .rx ∨ q = .csOff ∨ q = .spd
  | .transportTimedOut => q = .csOn ∨ q = .tx ∨ q = .rx ∨ q = .csOff ∨ q = .spd
  | .transportShortWrite m =>
    (q = .csOn ∧ m < 4) ∨ (q = .tx ∧ m < sent) ∨ (q = .csOff ∧ m < 3) ∨ (q = .spd ∧ m < 3)
  | .protocolShortReply m => q = .rx ∧ m < asked

/-- The sizes of R53 with the result bounds of R24. -/
def Transfer.WellSized : Transfer → Prop
  | .out p r => 1 ≤ p.length ∧ p.length ≤ Config.pktMax ∧ ∀ m, r = .done m → m ≤ p.length
  | .inp n r => 1 ≤ n ∧ n ≤ Config.payMax ∧ ∀ b, r = .data b → b.length ≤ n

/-- An answer that moves every byte of any packet of the block. -/
def Answer.full : Answer → Bool
  | .upTo m => decide (Config.pktMax ≤ m)
  | .fail _ => false
  | .timedOut => false

/-- The transfers of a successful exchange of `out`, with `reply k` the bytes answered to packet `k` (R70). -/
def exchangeTransfers (out : Bytes) (reply : Nat → Bytes) : List Transfer :=
  .out (csframe true) (.done 4) ::
    ((List.range (packetCount out.length)).flatMap fun k =>
      [.out (streamPacket out k) (.done (streamPacket out k).length), .inp (payloadCount out k) (.data (reply k))]) ++
    [.out (csframe false) (.done 3)]

/-- XCHG `out`, `cap` stands first on REQ, the block is idle with nothing waiting at the far end and no reset, and the
requester takes responses. -/
structure State.Presents (s : State) (out : Bytes) (cap : BitVec 32) : Prop where
  in_range : out.length ≤ Config.lenMax
  idle : s.st.fsm = .idle
  moves : s.BlockMoves
  ready : s.rspReady = true
  first : s.req.head? = some ⟨0x01#8, .exchange out cap⟩

/-- The transport is open and will answer the next `outs` OUT transfers and `ins` IN transfers in full. -/
structure State.Answers (s : State) (outs ins : Nat) : Prop where
  opened : s.session = none
  outs_enough : outs ≤ s.outs.length
  outs_full : ∀ a ∈ s.outs.take outs, a.full = true
  ins_enough : ins ≤ s.ins.length
  ins_full : ∀ a ∈ s.ins.take ins, a.full = true

/-- What the requester's side holds, unchanged: REQ, RSP, the session and the reset input. -/
structure State.PortsKept (s t : State) : Prop where
  req_kept : t.req = s.req
  rspReady_kept : t.rspReady = s.rspReady
  rsps_kept : t.rsps = s.rsps
  session_kept : t.session = s.session
  rst_kept : t.rst = s.rst

/-- `k` steps of the machine, stopping at the first that answers no next state. -/
def runSteps (k : Nat) (s : State) : Host.Outcome State Fault Refusal := Host.Core.run Sys2Proof.core k s

end Sys2Proof.Machine
end

