-- ==== Sys2Proof/Certificates/Slice0/Obligations.lean ====
section
/-! DEFINITION. The statements for the provers, in the terms of Safety.lean. A statement whose docstring names a log entry
rests on a choice of the model (notes/assumptions/<n>.md), not on a rule alone. -/

open Sys2Proof Sys2Proof.Machine

/-! ### Encoding -/

/-- Decode and encode agree: no operand bit of a well-formed instruction is lost (R81 to R86, R91; the record form of
requests is log 2). -/
def Obligations.DecodeEncodeRoundTrip : Prop :=
  ∀ i : Instr, i.WellFormed → decode (encode i) = .ok i

/-- Each code has one meaning: what decodes to an instruction is that instruction's encoding, and is well formed. -/
def Obligations.DecodedCodeIsTheEncoding : Prop :=
  ∀ (c : Code) (i : Instr), decode c = .ok i → i.WellFormed ∧ encode i = c

/-- Words written out from R81 to R86 and R91 decode to the instructions they stand for. -/
def Obligations.SpecWordsDecode : Prop :=
  decode (.packet [0xA8#8, 0xA0#8, 0x00#8]) = .ok (.spiStream [0xA0#8, 0x00#8]) ∧
    decode (.packet [0xAB#8, 0xB6#8, 0x7F#8, 0x20#8]) = .ok .csAssert ∧
    decode (.packet [0xAB#8, 0xB7#8, 0x20#8]) = .ok .csDeassert ∧
    decode (.packet [0xAA#8, 0x66#8, 0x00#8]) = .ok (.setSpeed 2#2 true) ∧
    decode (.subCommand 0xB6#8) = .ok (.uioStmOut 0x36#6) ∧
    decode (.subCommand 0x7F#8) = .ok (.uioStmDir 0x3F#6) ∧
    decode (.subCommand 0x20#8) = .ok .uioStmEnd ∧
    decode (.request ⟨0x10#8, .oneByte 0x9F#8⟩) = .ok (.rev 0x9F#8)

/-- R92 at the far end: a packet that is none of the four kinds is refused, so is a byte of an open IO stream that is
none of the three sub-commands (R82), and on REQ a record whose op code is none of the five (R91; log 28). -/
def Obligations.ReservedEncodingsAreRefused : Prop :=
  ∀ s : State, s.rst = false →
    (∀ p : Bytes, p ≠ [] → s.far.rx = p → s.far.uioOpen = false →
      (∀ ws : Bytes, 1 ≤ ws.length → ws.length ≤ 31 → p ≠ 0xA8#8 :: ws) →
      p ≠ [0xAB#8, 0xB6#8, 0x7F#8, 0x20#8] → p ≠ [0xAB#8, 0xB7#8, 0x20#8] →
      (∀ mode dbl, p ≠ speedPacket mode dbl) →
      ∃ why, step s = .refused (.reservedPacket why)) ∧
    (∀ (b : Byte) (more : Bytes), s.far.rx = b :: more → s.far.uioOpen = true →
      b &&& 0xC0#8 ≠ 0x80#8 → b &&& 0xC0#8 ≠ 0x40#8 → b ≠ 0x20#8 →
      ∃ why, step s = .refused (.reservedSubCommand why)) ∧
    (∀ (r : ReqRecord) (more : List ReqRecord), s.far.rx = [] → s.st.fsm = .idle → s.req = r :: more →
      r.op ≠ 0x01#8 → r.op ≠ 0x02#8 → r.op ≠ 0x10#8 → r.op ≠ 0x11#8 → r.op ≠ 0x12#8 →
      ∃ why, step s = .refused (.notARequest why))

/-! ### Stepping -/

/-- A step runs the decoded instruction: of the first request on REQ in IDLE, of the packet waiting at the far end, or
of the first sub-command of an open IO stream; each is taken from where it stood (log 22). -/
def Obligations.StepRunsDecodedInstruction : Prop :=
  ∀ (s : State) (i : Instr), s.rst = false →
    (∀ r more, s.far.rx = [] → s.st.fsm = .idle → s.req = r :: more → decode (.request r) = .ok i →
      step s = exec i { s with req := more }) ∧
    (∀ b more, s.far.rx = b :: more → s.far.uioOpen = false → decode (.packet (b :: more)) = .ok i →
      step s = exec i { s with far := { s.far with rx := [] } }) ∧
    (∀ b more, s.far.rx = b :: more → s.far.uioOpen = true → decode (.subCommand b) = .ok i →
      step s = exec i { s with far := { s.far with rx := more } })

/-- A packet that the block's transfer delivers whole is run by the far end in the same step: the step is the meaning of
the decoded packet after the block's own transaction (R6; log 22). -/
def Obligations.TransferRunsItsPacket : Prop :=
  ∀ (s : State) (p : Bytes) (i : Instr), s.BlockMoves → s.st.fsm ≠ .idle → (blockStep s).far.rx = p → p ≠ [] →
    decode (.packet p) = .ok i →
    step s = exec i { blockStep s with far := { (blockStep s).far with rx := [] } }

/-- R54, I13, I14: with no result from the transport, no request or no taker, the block holds in its state. -/
def Obligations.BlockHoldsWithoutResult : Prop :=
  ∀ s : State, s.BlockMoves →
    (s.session = none → s.outs = [] →
      (s.st.fsm = .csOn ∨ s.st.fsm = .tx ∨ s.st.fsm = .csOff ∨ s.st.fsm = .spd) → step s = .next s) ∧
    (s.session = none → s.ins = [] → s.st.fsm = .rx → step s = .next s) ∧
    (s.rspReady = false → s.st.fsm = .resp → step s = .next s) ∧
    (s.req = [] → s.st.fsm = .idle → step s = .next s)

/-! ### Operands -/

/-- R110: bit `i` of `REV8(b)` is bit `7 - i` of `b`; as a number it is the sum of the bits at their new places. -/
def Obligations.Rev8ReversesBits : Prop :=
  ∀ b : Byte,
    (∀ i : Nat, i ≤ 7 → (rev8 b).getLsbD i = b.getLsbD (7 - i)) ∧
      (rev8 b).toNat = ((List.range 8).map fun i => (b.getLsbD i).toNat <<< (7 - i)).sum

/-- R112: the laws of REV8; the spec marks items 3 to 6 as derived from R110. -/
def Obligations.Rev8Laws : Prop :=
  (∀ x : Byte, rev8 (rev8 x) = x) ∧
    rev8 0x00#8 = 0x00#8 ∧ rev8 0xFF#8 = 0xFF#8 ∧ rev8 0x01#8 = 0x80#8 ∧
    Function.Bijective rev8 ∧
    (∀ a b : Byte, rev8 (a ||| b) = rev8 a ||| rev8 b ∧ rev8 (a &&& b) = rev8 a &&& rev8 b ∧
      rev8 (a ^^^ b) = rev8 a ^^^ rev8 b ∧ rev8 (~~~a) = ~~~rev8 a) ∧
    (∀ x : Byte, rev8 x = x ↔ ∀ i : Nat, i ≤ 3 → x.getLsbD i = x.getLsbD (7 - i)) ∧
    (∀ x : Byte, rev8 x = x ↔ x ∈ [0x00#8, 0x18#8, 0x24#8, 0x3C#8, 0x42#8, 0x5A#8, 0x66#8, 0x7E#8, 0x81#8, 0x99#8,
      0xA5#8, 0xBD#8, 0xC3#8, 0xDB#8, 0xE7#8, 0xFF#8]) ∧
    ∀ x : Byte, ((List.range 8).filter fun i => (rev8 x).getLsbD i).length =
      ((List.range 8).filter fun i => x.getLsbD i).length

/-- R121: the two chip-select frames, from the parameters, and in bytes with the parameters' defaults (log 16). -/
def Obligations.CsframeBytes : Prop :=
  csframe true =
      [Config.opUioStream, Config.uioOut ||| Config.csPatOn.setWidth 8, Config.uioDir ||| Config.csDirMask.setWidth 8,
        Config.uioEnd] ∧
    csframe false = [Config.opUioStream, Config.uioOut ||| Config.csPatOff.setWidth 8, Config.uioEnd] ∧
    csframe true = [0xAB#8, 0xB6#8, 0x7F#8, 0x20#8] ∧ csframe false = [0xAB#8, 0xB7#8, 0x20#8]

/-- R123: `tile(x)` has `ceil(L/31)` packets, packet `k` is the marker and the reversed bytes `x[31k : min(31k+31, L)]`,
all but the last carry 31, the last carries the rest, 1 to 31; an empty payload has none. -/
def Obligations.TileSplitsGreedily : Prop :=
  ∀ x : Bytes,
    (tile x).length = ⌈(x.length : ℚ) / 31⌉₊ ∧
      (∀ k : Nat, k < (tile x).length →
        (tile x)[k]? = some (0xA8#8 :: ((x.take (min (31 * k + 31) x.length)).drop (31 * k)).map rev8)) ∧
      (∀ k : Nat, k + 1 < (tile x).length → ∀ p, (tile x)[k]? = some p → p.length = 32) ∧
      (∀ p, (tile x).getLast? = some p →
        p.length = 1 + (x.length - 31 * ((tile x).length - 1)) ∧ 2 ≤ p.length ∧ p.length ≤ 32) ∧
      (x.length = 0 → tile x = [])

/-- R124: the counting laws of `tile`; the spec marks items 2 to 5 as derived from R123. -/
def Obligations.TileCountingLaws : Prop :=
  ∀ x : Bytes,
    (tile x).length = ⌈(x.length : ℚ) / 31⌉₊ ∧
      (∀ p ∈ tile x, 2 ≤ p.length ∧ p.length ≤ 32) ∧
      (∀ k : Nat, k < (tile x).length → ∀ p, (tile x)[k]? = some p → p.length - 1 = min 31 (x.length - 31 * k)) ∧
      ((tile x).map fun p => p.length - 1).sum = x.length ∧
      ((tile x).map List.length).sum = x.length + (tile x).length ∧
      ((tile x).map fun p => p.tail.map rev8).flatten = x

/-! ### Requests -/

/-- R111: REV in IDLE, with its corner cases. That executing it outside IDLE leaves the whole state is log 23. -/
def Obligations.RevAnswersReversedByte : Prop :=
  (∀ (b : Byte) (s : State), s.st.fsm = .idle →
      exec (.rev b) s = .next { s with st := { s.st with rsp := .okBytes [rev8 b], fsm := .resp } }) ∧
    (∀ (b : Byte) (s : State), s.st.fsm ≠ .idle → exec (.rev b) s = .next s) ∧
    (∀ b : Byte, encode (.rev b) = .request ⟨0x10#8, .oneByte b⟩) ∧
    rev8 0x00#8 = 0x00#8 ∧ rev8 0xFF#8 = 0xFF#8 ∧ rev8 0x01#8 = 0x80#8 ∧
    (∀ b : Byte, (∀ i : Nat, i ≤ 7 → b.getLsbD i = b.getLsbD (7 - i)) → rev8 b = b) ∧
    ((List.range 256).filter fun n => rev8 (BitVec.ofNat 8 n) = BitVec.ofNat 8 n).length = 16

/-- R120: CSF in IDLE; the record of the chip-select level is among what stays. The bytes of its example are the defaults of
log 16, and that executing it outside IDLE leaves the whole state is log 23. -/
def Obligations.CsfAnswersFrame : Prop :=
  (∀ (sel : Bool) (s : State), s.st.fsm = .idle →
      exec (.csf sel) s = .next { s with st := { s.st with rsp := .okBytes (csframe sel), fsm := .resp } }) ∧
    (∀ (sel : Bool) (s : State), s.st.fsm ≠ .idle → exec (.csf sel) s = .next s) ∧
    (∀ sel : Bool, encode (.csf sel) = .request ⟨0x11#8, .oneFlag sel⟩) ∧
    (csframe true).length = 4 ∧ (csframe false).length = 3 ∧ csframe true = [0xAB#8, 0xB6#8, 0x7F#8, 0x20#8]

/-- R122: TILE in IDLE, with the packet lengths of its corner cases. That executing it outside IDLE leaves the whole state
is log 23. -/
def Obligations.TileAnswersPackets : Prop :=
  (∀ (x : Bytes) (s : State), s.st.fsm = .idle →
      exec (.tile x) s = .next { s with st := { s.st with rsp := .okPackets (tile x), fsm := .resp } }) ∧
    (∀ (x : Bytes) (s : State), s.st.fsm ≠ .idle → exec (.tile x) s = .next s) ∧
    (∀ x : Bytes, encode (.tile x) = .request ⟨0x12#8, .manyBytes x⟩) ∧
    (∀ x : Bytes, (Instr.tile x).WellFormed ↔ x.length ≤ 2 ^ 32 - 1) ∧
    (∀ x : Bytes, x.length = 0 → tile x = []) ∧
    (∀ x : Bytes, x.length = 31 → (tile x).map List.length = [32]) ∧
    (∀ x : Bytes, x.length = 32 → (tile x).map List.length = [32, 2]) ∧
    (∀ x : Bytes, x.length = 62 → (tile x).map List.length = [32, 32]) ∧
    (∀ x : Bytes, x.length = 63 → (tile x).map List.length = [32, 32, 2]) ∧
    tile [0x05#8, 0x00#8] = [[0xA8#8, 0xA0#8, 0x00#8]]

/-- R126: REV, CSF and TILE go from IDLE to RESP in one step and to IDLE when the response is taken; they change no field
of the block but `rsp` and `fsm`, and nothing at all outside it until the response is taken. That executing them outside
IDLE leaves the whole state is log 23. -/
def Obligations.PureRequestsTakeTwoSteps : Prop :=
  ∀ (i : Instr) (s : State), ((∃ b, i = .rev b) ∨ (∃ sel, i = .csf sel) ∨ ∃ x, i = .tile x) →
    (s.st.fsm = .idle → ∃ r,
      exec i s = .next { s with st := { s.st with rsp := r, fsm := .resp } } ∧
      (s.BlockMoves → s.rspReady = true →
        step { s with st := { s.st with rsp := r, fsm := .resp } } =
          .next { s with st := { s.st with rsp := r, fsm := .idle }, rsps := s.rsps ++ [r] })) ∧
    (s.st.fsm ≠ .idle → exec i s = .next s)

/-- R160: XCHG accepted in IDLE: its fields are loaded and nothing else changes; no transfer. -/
def Obligations.XchgIsAccepted : Prop :=
  ∀ (out : Bytes) (cap : BitVec 32) (s : State), s.st.fsm = .idle →
    exec (.xchg out cap) s =
      .next { s with st := { s.st with obuf := out, cap := cap, k := 0, acc := [], err := none, fsm := .csOn } }

/-- R200: SPEED is accepted in IDLE, and its SPD step sends the one speed packet: `st.spd` holds the speed after a full
result, UNSET after any other, which answers `Err`. Nothing else of the block changes. That the accept clears `st.err` is
R200 and R216 against R168 (log 29); that the far end has the new speed after the same step is R202 with log 22. -/
def Obligations.SpeedSendsOnePacket : Prop :=
  (∀ (mode : BitVec 2) (dbl : Bool) (s : State),
      (s.st.fsm = .idle →
        exec (.speed mode dbl) s =
          .next { s with st := { s.st with preq := (mode, dbl), err := none, fsm := .spd } }) ∧
      encode (.speed mode dbl) = .request ⟨0x02#8, .busSpeed mode dbl⟩) ∧
    ∀ (s s0 : State) (a : Answer) (mode : BitVec 2) (dbl : Bool), s.BlockMoves → s.st.fsm = .spd →
      s.st.preq = (mode, dbl) → s.answerOut = some (a, s0) →
      ∃ t, step s = .next t ∧ s.PortsKept t ∧ t.outs = s0.outs ∧ t.ins = s.ins ∧
        t.trace = s.trace ++
          [.out
            [Config.opI2cStream, Config.i2cStmSet ||| (if dbl then 0x04#8 else 0x00#8) ||| mode.setWidth 8,
              Config.i2cStmEnd]
            (outResult a 3)] ∧
        (outResult a 3 = .done 3 →
          t.st = { s.st with spd := some (mode, dbl), rsp := .okBytes [], fsm := .resp } ∧
            t.far.speed = .set mode dbl) ∧
        (outResult a 3 ≠ .done 3 →
          t.st = { s.st with
            spd := none
            err := some (s.st.err.getD (errOfOut (outResult a 3)))
            rsp := .err (s.st.err.getD (errOfOut (outResult a 3)))
            fsm := .resp })

/-- R246: a request is accepted in IDLE only; presented earlier it waits, neither lost nor taken; and the block stays in
RESP until the response is taken. That executing a request outside IDLE leaves the whole state is log 23. -/
def Obligations.BusyRequestsWait : Prop :=
  (∀ (i : Instr) (r : ReqRecord) (s : State), encode i = .request r → s.st.fsm ≠ .idle → exec i s = .next s) ∧
    (∀ s t : State, s.rst = false → s.st.fsm ≠ .idle → step s = .next t → t.req = s.req) ∧
    ∀ s : State, s.BlockMoves → s.st.fsm = .resp → s.rspReady = false → step s = .next s

/-! ### The block's transactions -/

/-- R141, R162: CS_ON sends the assert frame. After `Done(4)` the record is ASSERTED and the block goes to TX, or to CS_OFF
when there is no packet; after any other result the record is UNKNOWN and the error is recorded on the way to CS_OFF. That
the device is selected after the same step is R59 with log 22. -/
def Obligations.CsOnSendsAssertFrame : Prop :=
  ∀ (s s0 : State) (a : Answer), s.BlockMoves → s.st.fsm = .csOn → s.answerOut = some (a, s0) →
    ∃ t, step s = .next t ∧ s.PortsKept t ∧ t.outs = s0.outs ∧ t.ins = s.ins ∧
      t.trace = s.trace ++ [.out (csframe true) (outResult a 4)] ∧
      (outResult a 4 = .done 4 →
        t.st = { s.st with cs := .asserted, fsm := if s.st.obuf = [] then .csOff else .tx } ∧
          t.far.selected = true) ∧
      (outResult a 4 ≠ .done 4 →
        t.st = { s.st with
          cs := .unknown
          err := some (s.st.err.getD (errOfOut (outResult a 4)))
          fsm := .csOff })

/-- R163: TX sends stream packet `k`, to RX on a full result, else to CS_OFF with the error. That the far end holds as many
reply bytes as the packet has payload bytes after the same step is R58 with log 22. -/
def Obligations.TxSendsStreamPacket : Prop :=
  ∀ (s s0 : State) (a : Answer), s.BlockMoves → s.st.fsm = .tx → 31 * s.st.k < s.st.obuf.length →
    s.answerOut = some (a, s0) →
    let ws := ((s.st.obuf.drop (31 * s.st.k)).take 31).map rev8
    let r := outResult a (ws.length + 1)
    ∃ t, step s = .next t ∧ s.PortsKept t ∧ t.outs = s0.outs ∧ t.ins = s.ins ∧
      t.trace = s.trace ++ [.out (0xA8#8 :: ws) r] ∧
      (r = .done (ws.length + 1) → t.st = { s.st with fsm := .rx } ∧ t.far.reply.length = ws.length) ∧
      (r ≠ .done (ws.length + 1) →
        t.st = { s.st with err := some (s.st.err.getD (errOfOut r)), fsm := .csOff })

/-- R164, R165: RX asks for as many bytes as packet `k` carried. A full reply is accumulated, reversed, up to
`min(cap, L)` bytes, and `k` advances; a short one is discarded with ProtocolShortReply; a failed or timed-out transfer
records its error. That the far end holds no reply after a full one is R58 with log 12. After any other result R214 leaves the
far end unknown; that some last bytes of the reply stay held, all and none among the possibilities, and that nothing else of
the far end changes, is the model's choice (log 12). -/
def Obligations.RxTakesReply : Prop :=
  ∀ (s s0 : State) (a : Answer), s.BlockMoves → s.st.fsm = .rx → s.answerIn = some (a, s0) →
    let n := min 31 (s.st.obuf.length - 31 * s.st.k)
    let r := inResult a n s.far.reply
    ∃ t, step s = .next t ∧ s.PortsKept t ∧ t.outs = s.outs ∧ t.ins = s0.ins ∧
      t.trace = s.trace ++ [.inp n r] ∧ (∃ j, t.far = { s.far with reply := s.far.reply.drop j }) ∧
      (∀ b, r = .data b → b.length = n → t.far.reply = [] ∧
        t.st = { s.st with
          acc := s.st.acc ++ (b.take (min s.st.cap.toNat s.st.obuf.length - s.st.acc.length)).map rev8
          k := s.st.k + 1
          fsm := if 31 * (s.st.k + 1) < s.st.obuf.length then .tx else .csOff }) ∧
      (∀ b, r = .data b → b.length ≠ n →
        b.length < n ∧
          t.st = { s.st with err := some (s.st.err.getD (.protocolShortReply b.length)), fsm := .csOff }) ∧
      (∀ c, r = .fail c →
        t.st = { s.st with err := some (s.st.err.getD (.transportFailed c)), fsm := .csOff }) ∧
      (r = .timedOut → t.st = { s.st with err := some (s.st.err.getD .transportTimedOut), fsm := .csOff })

/-- R142, R166: CS_OFF sends the deassert frame and loads the response: the bytes kept if no error is recorded, else the
first error. That the device is deselected after the same step is R59 with log 22. -/
def Obligations.CsOffSendsDeassertFrame : Prop :=
  ∀ (s s0 : State) (a : Answer), s.BlockMoves → s.st.fsm = .csOff → s.answerOut = some (a, s0) →
    ∃ t, step s = .next t ∧ s.PortsKept t ∧ t.outs = s0.outs ∧ t.ins = s.ins ∧
      t.trace = s.trace ++ [.out (csframe false) (outResult a 3)] ∧
      (outResult a 3 = .done 3 →
        t.st = { s.st with
          cs := .deasserted
          rsp := match s.st.err with
            | none => .okBytes s.st.acc
            | some e => .err e
          fsm := .resp } ∧ t.far.selected = false) ∧
      (outResult a 3 ≠ .done 3 →
        t.st = { s.st with
          cs := .unknown
          err := some (s.st.err.getD (errOfOut (outResult a 3)))
          rsp := .err (s.st.err.getD (errOfOut (outResult a 3)))
          fsm := .resp })

/-- R168: RESP holds until the requester takes the response; then IDLE, and no other field of the block changes. -/
def Obligations.RespHandsBackResponse : Prop :=
  ∀ s : State, s.BlockMoves → s.st.fsm = .resp →
    (s.rspReady = true →
      step s = .next { s with st := { s.st with fsm := .idle }, rsps := s.rsps ++ [s.st.rsp] }) ∧
    (s.rspReady = false → step s = .next s)

/-! ### Errors -/

/-- R210: the kinds and the cause codes of the four errors. -/
def Obligations.ErrorKindsAndCodes : Prop :=
  (∀ c, errorKind (.transportFailed c) = .transportError ∧ causeCode (.transportFailed c) = 1) ∧
    (errorKind .transportTimedOut = .transportError ∧ causeCode .transportTimedOut = 2) ∧
    (∀ m, errorKind (.transportShortWrite m) = .transportError ∧ causeCode (.transportShortWrite m) = 3) ∧
    (∀ m, errorKind (.protocolShortReply m) = .protocolError ∧ causeCode (.protocolShortReply m) = 4) ∧
    (∀ m, errOfOut (.done m) = .transportShortWrite m) ∧ (∀ c, errOfOut (.fail c) = .transportFailed c) ∧
    errOfOut .timedOut = .transportTimedOut ∧ (∀ c, errOfIn (.fail c) = .transportFailed c) ∧
    errOfIn .timedOut = .transportTimedOut

/-- R213: an error recorded first stays: a raise leaves it, and a failed deassert frame after it sets the chip-select
record UNKNOWN but does not replace it. -/
def Obligations.FirstErrorWins : Prop :=
  (∀ (s : State) (e : Error), s.st.err = none → (s.raise e).st.err = some e) ∧
    (∀ (s : State) (e f : Error), s.st.err = some f → (s.raise e).st.err = some f) ∧
    ∀ (s s0 : State) (a : Answer) (f : Error), s.BlockMoves → s.st.fsm = .csOff → s.st.err = some f →
      s.answerOut = some (a, s0) → outResult a 3 ≠ .done 3 →
      ∃ t, step s = .next t ∧ t.st.cs = .unknown ∧ t.st.err = some f ∧ t.st.rsp = .err f

/-- R212, marked derived by the spec: an error newly recorded by a step is one its state can raise, with the bounds of
the table, and the block goes to CS_OFF, or from CS_OFF and SPD to RESP. -/
def Obligations.ErrorsFollowTheTable : Prop :=
  ∀ (s t : State) (e : Error), s.BlockMoves → s.st.Inv → step s = .next t → s.st.err = none → t.st.err = some e →
    s.st.fsm.mayRaise (streamPacket s.st.obuf s.st.k).length (payloadCount s.st.obuf s.st.k) e ∧
      t.st.fsm = (if s.st.fsm = .csOff ∨ s.st.fsm = .spd then .resp else .csOff)

/-- R214: taking an error in CS_ON, TX or RX saves `err` and nothing else of the block but the chip-select record, which
changes only in CS_ON; in CS_OFF and SPD it loads the `Err` response. -/
def Obligations.AbortSavesOnlyTheError : Prop :=
  ∀ (s t : State) (e : Error), s.BlockMoves → s.st.Inv → step s = .next t → s.st.err = none → t.st.err = some e →
    (s.st.fsm = .csOn → t.st = { s.st with err := some e, cs := .unknown, fsm := .csOff }) ∧
    (s.st.fsm = .tx ∨ s.st.fsm = .rx → t.st = { s.st with err := some e, fsm := .csOff }) ∧
    (s.st.fsm = .csOff → t.st = { s.st with err := some e, cs := .unknown, rsp := .err e, fsm := .resp }) ∧
    (s.st.fsm = .spd → t.st = { s.st with err := some e, spd := none, rsp := .err e, fsm := .resp })

/-- R57, R242: with the session not open, every transfer fails with its code; an XCHG attempts both frames and answers
`Err(TransportFailed(code))`. -/
def Obligations.ClosedSessionFailsExchange : Prop :=
  ∀ (s : State) (out : Bytes) (cap : BitVec 32) (c : Config.ErrCode), s.Presents out cap → s.session = some c →
    ∃ t, runSteps 4 s = .next t ∧ t.st.fsm = .idle ∧ t.st.cs = .unknown ∧
      t.rsps = s.rsps ++ [.err (.transportFailed c)] ∧
      t.trace = s.trace ++ [.out (csframe true) (.fail c), .out (csframe false) (.fail c)]

/-! ### The far end -/

/-- R58, R81: SPI_STREAM shifts its 1 to 31 wire bytes, which join the open select window, and holds as many reply
bytes; nothing but the far end's reply, window and device changes (and the counter, log 26). A payload of another
length is refused (R92). -/
def Obligations.SpiStreamShiftsAndHoldsReply : Prop :=
  (∀ (ws : Bytes) (s : State), 1 ≤ ws.length → ws.length ≤ 31 →
      ∃ t, exec (.spiStream ws) s = .next t ∧ t.far.reply.length = ws.length ∧
        t = { s with
          far := { s.far with
            reply := t.far.reply
            window := if s.far.selected then s.far.window ++ ws else s.far.window
            device := t.far.device }
          draws := s.draws + ws.length }) ∧
    ∀ (ws : Bytes) (s : State), ws.length = 0 ∨ 31 < ws.length →
      ∃ why, exec (.spiStream ws) s = .refused (.reservedPacket why)

/-- R58: reply byte `i` is what was captured while `w_i` was shifted: the byte itself on a loopback, the next byte of
the environment's script otherwise (R60; log 11, log 25). -/
def Obligations.StreamReplyIsCaptured : Prop :=
  ∀ (ws : Bytes) (s : State), 1 ≤ ws.length → ws.length ≤ 31 →
    (s.far.device = .echo → ∃ t, exec (.spiStream ws) s = .next t ∧ t.far.reply = ws ∧ t.far.device = .echo) ∧
    ∀ miso : Bytes, s.far.device = .script miso → ws.length ≤ miso.length →
      ∃ t, exec (.spiStream ws) s = .next t ∧ t.far.reply = miso.take ws.length ∧
        t.far.device = .script (miso.drop ws.length)

/-- R59, R82, R83: CS_ASSERT selects the device. A select window opens if none was open; one that was open goes on
(R247; log 13). The block and the ports do not change. -/
def Obligations.CsAssertSelects : Prop :=
  ∀ s : State, exec .csAssert s = .next { s with
    far := { s.far with
      lines := 0x36#6
      dirs := 0x3F#6
      uioOpen := false
      selected := true
      window := if s.far.selected then s.far.window else [] }
    draws := s.draws + 1 }

/-- R59, R82, R84: CS_DEASSERT deselects the device, and the bytes of the window that was open become one completed SPI
command sequence. The block and the ports do not change. -/
def Obligations.CsDeassertDeselects : Prop :=
  ∀ s : State, exec .csDeassert s = .next { s with
    far := { s.far with
      lines := 0x37#6
      uioOpen := false
      selected := false
      window := if s.far.selected then [] else s.far.window
      seqs := if s.far.selected then s.far.seqs ++ [s.far.window] else s.far.seqs
      device := if s.far.selected then s.far.device.afterWindow s.far.window else s.far.device } }

/-- R82, R83, R84: run byte by byte as an open IO stream, the sub-commands of a chip-select frame do what the frame
does; for the deassert frame, where line D0 is an output (R85; log 14). -/
def Obligations.FramesAreTheirSubCommands : Prop :=
  ∀ s : State, s.rst = false →
    runSteps 3 { s with far := { s.far with rx := [0xB6#8, 0x7F#8, 0x20#8], uioOpen := true } } =
        exec .csAssert { s with far := { s.far with rx := [], uioOpen := true } } ∧
      (s.far.dirs.getLsbD 0 = true →
        runSteps 2 { s with far := { s.far with rx := [0xB7#8, 0x20#8], uioOpen := true } } =
          exec .csDeassert { s with far := { s.far with rx := [], uioOpen := true } })

/-- R82: UIO_STM_OUT drives the six output lines to `v`. Where D0 is an output its level is the chip-select, active low,
which opens or closes a select window if it changes (R59, R85; log 14); where it is not, nothing else changes. -/
def Obligations.UioOutDrivesLines : Prop :=
  ∀ (v : BitVec 6) (s : State),
    (s.far.dirs.getLsbD 0 = true →
      exec (.uioStmOut v) s = .next { s with far := { s.far with
        lines := v
        selected := !v.getLsbD 0
        window := if s.far.selected = !v.getLsbD 0 then s.far.window else []
        seqs := if s.far.selected && v.getLsbD 0 then s.far.seqs ++ [s.far.window] else s.far.seqs
        device := if s.far.selected && v.getLsbD 0 then s.far.device.afterWindow s.far.window else s.far.device } }) ∧
    (s.far.dirs.getLsbD 0 = false →
      exec (.uioStmOut v) s = .next { s with far := { s.far with lines := v } })

/-- R82: UIO_STM_DIR makes the lines where `v` has a 1 outputs. That it makes a line whose bit is 0 an input is the model's
choice (log 31). D0 made an output drives the chip-select; D0 that was an output and is one no longer leaves a level the
spec does not give; else the level stays (R59, R85; log 14). -/
def Obligations.UioDirSetsDirections : Prop :=
  ∀ (v : BitVec 6) (s : State),
    ∃ level : Bool,
      (v.getLsbD 0 = true → level = !s.far.lines.getLsbD 0) ∧
      (v.getLsbD 0 = false → s.far.dirs.getLsbD 0 = false → level = s.far.selected) ∧
      exec (.uioStmDir v) s = .next { s with
        far := { s.far with
          dirs := v
          selected := level
          window := if s.far.selected = level then s.far.window else []
          seqs := if s.far.selected && !level then s.far.seqs ++ [s.far.window] else s.far.seqs
          device := if s.far.selected && !level then s.far.device.afterWindow s.far.window else s.far.device }
        draws := s.draws + 1 }

/-- R82: UIO_STM_END ends the IO stream; a byte after the end marker is refused (R92; log 15). -/
def Obligations.UioEndClosesStream : Prop :=
  ∀ s : State,
    (s.far.rx = [] → exec .uioStmEnd s = .next { s with far := { s.far with uioOpen := false } }) ∧
    ∀ b more, s.far.rx = b :: more → exec .uioStmEnd s = .refused (.bytesAfterEnd (b :: more))

/-- R202: SET_SPEED sets the far end's speed, and nothing else changes; the speed in force is then the OPEN `SPEED_MAP` of it
(R201; log 17), and `BRIDGE_DEFAULT_SPEED` at reset. That nothing but a speed packet changes it is OnlySpeedPacketsChangeSpeed. -/
def Obligations.SetSpeedSetsSpeedInForce : Prop :=
  (∀ (mode : BitVec 2) (dbl : Bool) (s : State),
      exec (.setSpeed mode dbl) s = .next { s with far := { s.far with speed := .set mode dbl } }) ∧
    (∀ (mode : BitVec 2) (dbl : Bool) (f : FarEnd), f.speed = .set mode dbl →
      f.speedInForce = Config.speedMap mode dbl) ∧
    State.reset.far.speedInForce = Config.bridgeDefaultSpeed

/-! ### Reset -/

/-- R240, R241: reset gives every field of the block its reset value, whatever was in progress; it issues no transfer and
gives no response. The clause on the far end is the model's choice, since R241 and D25 leave the far end after a reset unknown: it is
as it was in IDLE and RESP, where no transfer is in progress (log 30), and in any state, TX and SPD too, with something
waiting there, which the far end takes before the block moves (log 22 and log 30). That what waits at the far end stays is
the same choice. What a transfer cut off leaves there is ResetCutsOffTransfer. The release of the reset input is log 19. The
machine starts in that state. -/
def Obligations.ResetGivesResetValues : Prop :=
  (∀ s : State, s.rst = true →
      ∃ t, step s = .next t ∧
        t = { s with
          rst := false
          st := {
            fsm := .idle
            obuf := []
            cap := 0#32
            k := 0
            acc := []
            err := none
            cs := .unknown
            spd := none
            preq := (0#2, false)
            rsp := .okBytes [] }
          far := t.far
          draws := t.draws } ∧
        t.far.rx = s.far.rx ∧
        (s.st.fsm = .idle ∨ s.st.fsm = .resp ∨ s.far.rx ≠ [] → t.far = s.far)) ∧
    ∀ s : State, State.reset.st = s.assertReset.st

/-- R34: the block's invariant holds right after reset. That nothing waits at the far end and no request is presented
then is log 20. -/
def Obligations.ResetSatisfiesInvariants : Prop :=
  State.reset.st.Inv ∧ State.reset.Quiet ∧ State.reset.RequestsValid

/-! ### Invariants and whole-machine rules -/

/-- R34: every step keeps the block's invariant, from every state that has it. -/
def Obligations.BlockInvariantIsKept : Prop :=
  ∀ s t : State, s.st.Inv → step s = .next t → t.st.Inv

/-- R22, R92, 93_implementation_defined.md "No behaviour of the block is a fault": from a state with the block's
invariant, nothing waiting at the far end and only requests presented, a step always answers a next state, and the next
state is such a state again. -/
def Obligations.QuietMachineNeverStops : Prop :=
  ∀ s : State, s.st.Inv → s.Quiet → s.RequestsValid →
    ∃ t, step s = .next t ∧ t.st.Inv ∧ t.Quiet ∧ t.RequestsValid

/-- R26: without reset, a step leaves the sequencer state as it is or moves it along the table. -/
def Obligations.FsmFollowsTheTable : Prop :=
  ∀ s t : State, s.rst = false → step s = .next t → t.st.fsm = s.st.fsm ∨ s.st.fsm.leavesTo t.st.fsm = true

/-- R28: without reset, `k` stays, or advances by exactly one on a full reply taken in RX, or becomes 0 when an XCHG is
accepted. -/
def Obligations.PacketNumberAdvancesByOne : Prop :=
  ∀ s t : State, s.rst = false → step s = .next t →
    t.st.k = s.st.k ∨
      (s.st.fsm = .rx ∧ t.st.k = s.st.k + 1 ∧
        ∃ b, t.trace = s.trace ++ [.inp (payloadCount s.st.obuf s.st.k) (.data b)] ∧
          b.length = payloadCount s.st.obuf s.st.k) ∨
      (s.st.fsm = .idle ∧ t.st.fsm = .csOn ∧ t.st.k = 0)

/-- R20, R21 (marked derived by the spec): a step issues at most one transfer: OUT in CS_ON, TX, CS_OFF and SPD, IN in
RX, none in IDLE and RESP, and none while the far end or a reset takes the step. -/
def Obligations.OneTransferPerStep : Prop :=
  ∀ s t : State, step s = .next t →
    t.trace = s.trace ∨
      (s.BlockMoves ∧ ∃ x, t.trace = s.trace ++ [x] ∧
        (((∃ p r, x = .out p r) ∧
            (s.st.fsm = .csOn ∨ s.st.fsm = .tx ∨ s.st.fsm = .csOff ∨ s.st.fsm = .spd)) ∨
          ((∃ n r, x = .inp n r) ∧ s.st.fsm = .rx)))

/-- R53 (marked derived by the spec), R92: under the invariant every OUT transfer is 1 to 32 bytes and one of the four
packet kinds, every IN transfer asks for 1 to 31 bytes, and no result exceeds what was issued. -/
def Obligations.TransfersAreWellSized : Prop :=
  ∀ (s t : State) (new : List Transfer), s.st.Inv → step s = .next t → t.trace = s.trace ++ new →
    ∀ x ∈ new, x.WellSized ∧
      ∀ p r, x = .out p r →
        p = csframe true ∨ p = csframe false ∨ (∃ mode dbl, p = speedPacket mode dbl) ∨
          ∃ k, k < packetCount s.st.obuf.length ∧ p = streamPacket s.st.obuf k

/-- R140, R145: outside CS_ON and CS_OFF no step sends a chip-select frame or writes the chip-select record; and
`st.spd` is written in SPD only (R31). -/
def Obligations.OnlyCscTouchesChipSelect : Prop :=
  ∀ (s t : State) (new : List Transfer), s.rst = false → step s = .next t → t.trace = s.trace ++ new →
    (s.st.fsm ≠ .csOn → s.st.fsm ≠ .csOff → t.st.cs = s.st.cs ∧ ∀ sel r, Transfer.out (csframe sel) r ∉ new) ∧
      (s.st.fsm ≠ .spd → t.st.spd = s.st.spd)

/-- R32, R60, R202: of the far end the block reads the held reply only: two machines that differ in anything else of the
far end (level, lines, speed, window, device) and in the counter of free values make the same transfer with the same
result and reach the same block state. -/
def Obligations.BlockReadsOnlyTheReply : Prop :=
  ∀ (s t t' : State) (f : FarEnd) (d : Nat), s.far.rx = [] → f.rx = [] → f.reply = s.far.reply →
    step s = .next t → step { s with far := f, draws := d } = .next t' →
    t'.st = t.st ∧ t'.trace = t.trace ∧ t'.rsps = t.rsps ∧ t'.req = t.req ∧ t'.outs = t.outs ∧ t'.ins = t.ins

/-! ### Whole exchanges -/

/-- R70, R167, R175: an XCHG whose transfers all succeed takes exactly `2n + 4` steps, makes the transfers of R70 in
order, and answers the first `min(cap, L)` bytes of its replies, reversed, whatever the environment replied. -/
def Obligations.ExchangeSucceeds : Prop :=
  ∀ (s : State) (out : Bytes) (cap : BitVec 32), s.Presents out cap →
    s.Answers (packetCount out.length + 2) (packetCount out.length) →
    ∃ (t : State) (reply : Nat → Bytes),
      runSteps (2 * packetCount out.length + 4) s = .next t ∧
        (∀ k, k < packetCount out.length → (reply k).length = payloadCount out k) ∧
        t.trace = s.trace ++ exchangeTransfers out reply ∧
        t.rsps = s.rsps ++
          [.okBytes ((extract ((List.range (packetCount out.length)).map reply)).take (min cap.toNat out.length))] ∧
        t.st.fsm = .idle ∧ t.st.cs = .deasserted ∧ t.st.err = none ∧ t.st.k = packetCount out.length ∧
        t.st.spd = s.st.spd ∧ t.req = s.req.tail

/-- R112, R165, R167: on a loopback the logical replies are the logical payload: the XCHG answers the first `cap`
bytes of `out` (the loopback is the reference environment ECHO, log 25). -/
def Obligations.ExchangeUnderLoopback : Prop :=
  ∀ (s : State) (out : Bytes) (cap : BitVec 32), s.Presents out cap → s.far.device = .echo →
    s.Answers (packetCount out.length + 2) (packetCount out.length) →
    ∃ t : State, runSteps (2 * packetCount out.length + 4) s = .next t ∧
      t.trace = s.trace ++ exchangeTransfers out (fun k => (chunk out k).map rev8) ∧
      t.rsps = s.rsps ++ [.okBytes (out.take cap.toNat)]

/-- R147: when both frames are received, the stream packets of the XCHG, and only they, are one SPI command sequence:
the wire bytes of `out`, reversed, in order. If the device was still selected before, they join the bytes of the
window that was open (R247; log 13). -/
def Obligations.ExchangeIsOneSpiSequence : Prop :=
  ∀ (s : State) (out : Bytes) (cap : BitVec 32), s.Presents out cap →
    s.Answers (packetCount out.length + 2) (packetCount out.length) →
    ∃ t : State, runSteps (2 * packetCount out.length + 4) s = .next t ∧ t.far.selected = false ∧
      t.far.seqs = s.far.seqs ++ [(if s.far.selected then s.far.window else []) ++ out.map rev8]

/-- R143, and R144 and R175, marked derived by the spec: whatever the transport answers, an XCHG ends within `2n + 4`
steps in IDLE with one response; its first transfer is the assert frame, its last the deassert frame, and no other
chip-select frame is sent; the record is then DEASSERTED if that last transfer was `Done(3)`, else UNKNOWN; the
response is an error or `min(cap, L)` bytes. -/
def Obligations.ExchangeAlwaysEnds : Prop :=
  ∀ (s : State) (out : Bytes) (cap : BitVec 32), s.Presents out cap →
    (s.session.isSome = true ∨
      (packetCount out.length + 2 ≤ s.outs.length ∧ packetCount out.length ≤ s.ins.length)) →
    ∃ (steps : Nat) (t : State) (first last : OutResult) (middle : List Transfer) (rsp : Response),
      steps ≤ 2 * packetCount out.length + 4 ∧ runSteps steps s = .next t ∧ t.st.fsm = .idle ∧
        t.rsps = s.rsps ++ [rsp] ∧
        t.trace = s.trace ++ ([.out (csframe true) first] ++ middle ++ [.out (csframe false) last]) ∧
        (∀ sel r, Transfer.out (csframe sel) r ∉ middle) ∧
        t.st.cs = (if last = .done 3 then .deasserted else .unknown) ∧
        ((∃ e, rsp = .err e) ∨ ∃ data, rsp = .okBytes data ∧ data.length = min cap.toNat out.length)

/-- R243, first row of R171: `XCHG [], cap` sends the two frames and nothing else, answers `OkBytes([])`, and leaves the
record DEASSERTED and the device deselected. -/
def Obligations.EmptyExchangeRecovers : Prop :=
  ∀ (s : State) (cap : BitVec 32), s.Presents [] cap → s.Answers 2 0 →
    ∃ t : State, runSteps 4 s = .next t ∧
      t.trace = s.trace ++ [.out (csframe true) (.done 4), .out (csframe false) (.done 3)] ∧
      t.rsps = s.rsps ++ [.okBytes []] ∧ t.st.cs = .deasserted ∧ t.far.selected = false

/-- R170: the counts of a successful exchange: `n + 2` OUT and `n` IN transfers, `L + n + 7` bytes sent, `L` bytes asked
for and, where each reply is as long as asked, `L` received. -/
def Obligations.ExchangeCounts : Prop :=
  ∀ (out : Bytes) (reply : Nat → Bytes),
    (∀ k, k < packetCount out.length → (reply k).length = payloadCount out k) →
    let ts := exchangeTransfers out reply
    let n := packetCount out.length
    (ts.filterMap fun x => match x with
        | .out p _ => some p.length
        | .inp _ _ => none).length = n + 2 ∧
      (ts.filterMap fun x => match x with
        | .inp m _ => some m
        | .out _ _ => none).length = n ∧
      (ts.filterMap fun x => match x with
        | .out p _ => some p.length
        | .inp _ _ => none).sum = out.length + n + 7 ∧
      (ts.filterMap fun x => match x with
        | .inp m _ => some m
        | .out _ _ => none).sum = out.length ∧
      (ts.filterMap fun x => match x with
        | .inp _ (.data b) => some b.length
        | _ => none).sum = out.length

/-! ### The far end after a transfer that did not succeed -/

/-- R248: after a speed packet whose transfer did not succeed, the far end has the old speed or the new one. That nothing
else of it changes, but that some first bytes of the reply held may be gone, is the model's choice (log 10), where R214 leaves
the far end unknown; an IO stream left open is over (log 15). -/
def Obligations.FailedSpeedLeavesOldOrNew : Prop :=
  ∀ (s s0 : State) (a : Answer), s.BlockMoves → s.st.fsm = .spd → s.answerOut = some (a, s0) →
    outResult a 3 ≠ .done 3 →
    ∃ t j, step s = .next t ∧
      t.far = { s.far with speed := t.far.speed, reply := s.far.reply.drop j, uioOpen := false } ∧
      (t.far.speed = s.far.speed ∨ t.far.speed = .set s.st.preq.1 s.st.preq.2)

/-- 93_implementation_defined.md I9: after a stream packet whose transfer did not succeed, some first `m` of its payload
bytes have been shifted, none and all among the possibilities; with none shifted some last bytes of the reply held before
stay, all and none among the possibilities (the model's choice, log 10), else as many as were shifted are held. The level,
the lines and the speed stay. -/
def Obligations.FailedStreamShiftsSomePrefix : Prop :=
  ∀ (s s0 : State) (a : Answer), s.BlockMoves → s.st.fsm = .tx → 31 * s.st.k < s.st.obuf.length →
    s.answerOut = some (a, s0) →
    let ws := ((s.st.obuf.drop (31 * s.st.k)).take 31).map rev8
    outResult a (ws.length + 1) ≠ .done (ws.length + 1) →
    ∃ t m, step s = .next t ∧ m ≤ ws.length ∧
      t.far.window = (if s.far.selected then s.far.window ++ ws.take m else s.far.window) ∧
      (m = 0 → ∃ j, t.far.reply = s.far.reply.drop j) ∧ (m ≠ 0 → t.far.reply.length = m) ∧
      t.far.selected = s.far.selected ∧ t.far.lines = s.far.lines ∧ t.far.dirs = s.far.dirs ∧
      t.far.speed = s.far.speed ∧ t.far.seqs = s.far.seqs ∧ t.far.rx = []

/-- R241, D25: a reset in a state that has a transfer in progress leaves the far end open. In SPD it has the old speed or the
new one; in TX some first `m` payload bytes of the packet have been shifted, none and all among the possibilities; in CS_ON
and CS_OFF nothing is said of the level and the lines. In each, and in RX, some last bytes of the reply held before are still
held, all and none among the possibilities, but in TX where bytes were shifted. These limits are the model's choice (log 10,
log 30), and so is that nothing then waits there (log 22). -/
def Obligations.ResetCutsOffTransfer : Prop :=
  ∀ s : State, s.rst = true → s.far.rx = [] →
    ∃ t, step s = .next t ∧ t.far.rx = [] ∧
      (s.st.fsm = .spd →
        (∃ j, t.far = { s.far with speed := t.far.speed, reply := s.far.reply.drop j, uioOpen := false }) ∧
          (t.far.speed = s.far.speed ∨ t.far.speed = .set s.st.preq.1 s.st.preq.2)) ∧
      (s.st.fsm = .tx → 31 * s.st.k < s.st.obuf.length →
        let ws := ((s.st.obuf.drop (31 * s.st.k)).take 31).map rev8
        ∃ m, m ≤ ws.length ∧
          t.far.window = (if s.far.selected then s.far.window ++ ws.take m else s.far.window) ∧
          (m = 0 → ∃ j, t.far.reply = s.far.reply.drop j) ∧ (m ≠ 0 → t.far.reply.length = m) ∧
          t.far.selected = s.far.selected ∧ t.far.lines = s.far.lines ∧ t.far.dirs = s.far.dirs ∧
          t.far.speed = s.far.speed ∧ t.far.seqs = s.far.seqs) ∧
      (s.st.fsm = .csOn ∨ s.st.fsm = .csOff → t.far.speed = s.far.speed ∧ ∃ j, t.far.reply = s.far.reply.drop j) ∧
      (s.st.fsm = .rx → ∃ j, t.far = { s.far with reply := s.far.reply.drop j })

/-- R202: a step leaves the far end's speed, or sets it to that of a speed packet: one that waited at the far end, or the
one of the SPEED in progress in SPD. In SPD the step may also be one whose transfer did not succeed (log 10) or a reset that
cuts it off (log 30), after which the model allows the old speed or the new one and no third; R241 says unknown. That a
packet received does set the speed is SetSpeedSetsSpeedInForce and SpeedSendsOnePacket. -/
def Obligations.OnlySpeedPacketsChangeSpeed : Prop :=
  ∀ s t : State, step s = .next t →
    t.far.speed = s.far.speed ∨
      ∃ mode dbl, t.far.speed = .set mode dbl ∧
        ((s.far.rx = speedPacket mode dbl ∧ s.far.uioOpen = false) ∨
          (s.far.rx = [] ∧ s.st.fsm = .spd ∧ s.st.preq = (mode, dbl)))
end

