-- ==== Sys2Proof/Laws/Operands.lean ====
section
/-! SUPPORT. The small lemmas of the operand operations: bit reversal, chunks, packet counts, accumulation. -/

namespace Sys2Proof.Machine

theorem rev8_rev8 (b : Byte) : rev8 (rev8 b) = b := by
  revert b; decide

theorem map_rev8_map_rev8 (x : Bytes) : (x.map rev8).map rev8 = x := by
  simp [Function.comp_def, rev8_rev8]

@[simp] theorem csframe_true_length : (csframe true).length = 4 := rfl

@[simp] theorem csframe_false_length : (csframe false).length = 3 := rfl

@[simp] theorem speedPacket_length (mode : BitVec 2) (dbl : Bool) : (speedPacket mode dbl).length = 3 := rfl

@[simp] theorem streamPacket_length (x : Bytes) (k : Nat) :
    (streamPacket x k).length = (chunk x k).length + 1 := by
  simp [streamPacket]

@[simp] theorem payloadCount_eq (x : Bytes) (k : Nat) : payloadCount x k = (chunk x k).length := by
  simp [payloadCount]

theorem chunk_length (x : Bytes) (k : Nat) :
    (chunk x k).length = min Config.payMax (x.length - Config.payMax * k) := by
  simp [chunk]

theorem chunk_length_le (x : Bytes) (k : Nat) : (chunk x k).length ≤ Config.payMax := by
  rw [chunk_length]; exact Nat.min_le_left _ _

/-- `k < ceil(L / 31)` exactly when packet `k` starts inside the payload. -/
theorem lt_packetCount_iff (len k : Nat) : k < packetCount len ↔ Config.payMax * k < len := by
  simp only [packetCount, Config.payMax]; omega

theorem chunk_length_pos {x : Bytes} {k : Nat} (h : k < packetCount x.length) : 1 ≤ (chunk x k).length := by
  rw [lt_packetCount_iff] at h
  rw [chunk_length]
  simp only [Config.payMax] at *; omega

/-- Accumulation in closed form: as many of the new bytes as there is room for, each reversed (R165). -/
theorem accumulate_eq (keep : Nat) (acc b : Bytes) :
    accumulate keep acc b = acc ++ (b.take (keep - acc.length)).map rev8 := by
  induction b generalizing acc with
  | nil => simp [accumulate]
  | cons y ys ih =>
    rw [accumulate]
    split
    · rename_i h
      rw [ih]
      obtain ⟨m, hm⟩ : ∃ m, keep - acc.length = m + 1 := ⟨keep - acc.length - 1, by omega⟩
      have : keep - (acc ++ [rev8 y]).length = m := by simp; omega
      rw [this, hm]; simp
    · rename_i h
      rw [ih]
      have : keep - acc.length = 0 := by omega
      simp [this]

theorem accumulate_length (keep : Nat) (acc b : Bytes) :
    (accumulate keep acc b).length = acc.length + min (keep - acc.length) b.length := by
  simp [accumulate_eq]

end Sys2Proof.Machine
end

