-- ==== Sys2Proof/Laws/Decode.lean ====
section
/-! SUPPORT. What the decoder reads from the packets the block sends, and that what it reads is well formed. -/

namespace Sys2Proof

open Machine

@[simp] theorem decode_assert : decode (.packet (csframe true)) = .ok .csAssert := by decide

@[simp] theorem decode_deassert : decode (.packet (csframe false)) = .ok .csDeassert := by decide

@[simp] theorem decode_speedPacket (mode : BitVec 2) (dbl : Bool) :
    decode (.packet (speedPacket mode dbl)) = .ok (.setSpeed mode dbl) := by
  revert mode dbl; decide

theorem decode_stream {ws : Bytes} (h1 : 1 ≤ ws.length) (h2 : ws.length ≤ Config.payMax) :
    decode (.packet (Config.opSpiStream :: ws)) = .ok (.spiStream ws) := by
  have h : ¬ ws.length = 0 := by omega
  have h' : ¬ Config.payMax < ws.length := by omega
  simp [decode, decodePacket, h, h']

/-- The stream packet of TX, for a packet number in range. -/
theorem decode_streamPacket {x : Bytes} {k : Nat} (h : k < packetCount x.length) :
    decode (.packet (streamPacket x k)) = .ok (.spiStream ((chunk x k).map rev8)) :=
  decode_stream (by simpa using chunk_length_pos h) (by simpa using chunk_length_le x k)

theorem decode_request_exchange {out : Bytes} {cap : BitVec 32} (h : out.length ≤ Config.lenMax) :
    decode (.request ⟨0x01#8, .exchange out cap⟩) = .ok (.xchg out cap) := by
  simp [decode, decodeRequest, h]

end Sys2Proof
end

