-- ==== Sys2Proof/Laws/FarEnd.lean ====
section
/-! SUPPORT. What each far-end operation does to each field it can touch, and what it leaves alone. -/

namespace Sys2Proof.Machine

section Level

variable (level : Bool) (f : FarEnd)

@[simp] theorem setLevel_selected : (f.setLevel level).selected = level := by
  cases h : f.selected <;> cases level <;> simp [FarEnd.setLevel, h]

@[simp] theorem setLevel_rx : (f.setLevel level).rx = f.rx := by
  cases h : f.selected <;> cases level <;> simp [FarEnd.setLevel, h]

@[simp] theorem setLevel_uioOpen : (f.setLevel level).uioOpen = f.uioOpen := by
  cases h : f.selected <;> cases level <;> simp [FarEnd.setLevel, h]

@[simp] theorem setLevel_lines : (f.setLevel level).lines = f.lines := by
  cases h : f.selected <;> cases level <;> simp [FarEnd.setLevel, h]

@[simp] theorem setLevel_dirs : (f.setLevel level).dirs = f.dirs := by
  cases h : f.selected <;> cases level <;> simp [FarEnd.setLevel, h]

@[simp] theorem setLevel_speed : (f.setLevel level).speed = f.speed := by
  cases h : f.selected <;> cases level <;> simp [FarEnd.setLevel, h]

@[simp] theorem setLevel_reply : (f.setLevel level).reply = f.reply := by
  cases h : f.selected <;> cases level <;> simp [FarEnd.setLevel, h]

end Level

/-- Setting a level twice is setting the second, when they agree. -/
@[simp] theorem setLevel_setLevel_same (level : Bool) (f : FarEnd) :
    (f.setLevel level).setLevel level = f.setLevel level := by
  cases h : f.selected <;> cases level <;> simp [FarEnd.setLevel, h]

theorem setLevel_of_eq {level : Bool} {f : FarEnd} (h : f.selected = level) : f.setLevel level = f := by
  cases level <;> simp [FarEnd.setLevel, h]

/-- Setting a level, in closed form. -/
theorem setLevel_eq (level : Bool) (f : FarEnd) :
    f.setLevel level = { f with
      selected := level
      window := if f.selected = level then f.window else []
      seqs := if f.selected && !level then f.seqs ++ [f.window] else f.seqs
      device := if f.selected && !level then f.device.afterWindow f.window else f.device } := by
  obtain ⟨rx, uo, lines, dirs, sel, sp, rep, win, sq, dev⟩ := f
  cases sel <;> cases level <;> simp [FarEnd.setLevel]

/-- Everything that shifting does not touch. -/
theorem shiftBytes_frame (d : Nat) (f : FarEnd) (ws : Bytes) :
    let t := f.shiftBytes d ws
    t.rx = f.rx ∧ t.uioOpen = f.uioOpen ∧ t.lines = f.lines ∧ t.dirs = f.dirs ∧ t.selected = f.selected ∧
      t.speed = f.speed ∧ t.seqs = f.seqs := by
  induction ws generalizing d f with
  | nil => simp [FarEnd.shiftBytes]
  | cons w ws ih => simpa [FarEnd.shiftBytes, FarEnd.shiftByte] using ih (d + 1) (f.shiftByte d w)

theorem shiftBytes_reply_length (d : Nat) (f : FarEnd) (ws : Bytes) :
    (f.shiftBytes d ws).reply.length = f.reply.length + ws.length := by
  induction ws generalizing d f with
  | nil => simp [FarEnd.shiftBytes]
  | cons w ws ih => simp [FarEnd.shiftBytes, ih, FarEnd.shiftByte]; omega

theorem shiftBytes_window (d : Nat) (f : FarEnd) (ws : Bytes) :
    (f.shiftBytes d ws).window = if f.selected then f.window ++ ws else f.window := by
  induction ws generalizing d f with
  | nil => simp [FarEnd.shiftBytes]
  | cons w ws ih =>
    simp only [FarEnd.shiftBytes, ih, FarEnd.shiftByte]
    cases f.selected <;> simp

theorem shiftBytes_echo (d : Nat) (f : FarEnd) (ws : Bytes) (h : f.device = .echo) :
    (f.shiftBytes d ws).reply = f.reply ++ ws ∧ (f.shiftBytes d ws).device = .echo := by
  induction ws generalizing d f with
  | nil => simp [FarEnd.shiftBytes, h]
  | cons w ws ih =>
    have := ih (d + 1) (f.shiftByte d w) (by simp [FarEnd.shiftByte, h, Device.afterByte])
    simpa [FarEnd.shiftBytes, FarEnd.shiftByte, FarEnd.captured, h] using this

section Stream

variable (d : Nat) (ws : Bytes) (f : FarEnd)

@[simp] theorem stream_rx : (f.stream d ws).rx = f.rx := (shiftBytes_frame d _ ws).1

@[simp] theorem stream_uioOpen : (f.stream d ws).uioOpen = f.uioOpen := (shiftBytes_frame d _ ws).2.1

@[simp] theorem stream_lines : (f.stream d ws).lines = f.lines := (shiftBytes_frame d _ ws).2.2.1

@[simp] theorem stream_dirs : (f.stream d ws).dirs = f.dirs := (shiftBytes_frame d _ ws).2.2.2.1

@[simp] theorem stream_selected : (f.stream d ws).selected = f.selected := (shiftBytes_frame d _ ws).2.2.2.2.1

@[simp] theorem stream_speed : (f.stream d ws).speed = f.speed := (shiftBytes_frame d _ ws).2.2.2.2.2.1

@[simp] theorem stream_seqs : (f.stream d ws).seqs = f.seqs := (shiftBytes_frame d _ ws).2.2.2.2.2.2

@[simp] theorem stream_reply_length : (f.stream d ws).reply.length = ws.length := by
  simp [FarEnd.stream, shiftBytes_reply_length]

@[simp] theorem stream_window :
    (f.stream d ws).window = if f.selected then f.window ++ ws else f.window := by
  simp [FarEnd.stream, shiftBytes_window]

end Stream

theorem stream_echo (d : Nat) (ws : Bytes) (f : FarEnd) (h : f.device = .echo) :
    (f.stream d ws).reply = ws ∧ (f.stream d ws).device = .echo := by
  simpa [FarEnd.stream] using shiftBytes_echo d { f with reply := [] } ws h

section Frames

variable (d : Nat) (f : FarEnd)

@[simp] theorem driveLines_rx (v : BitVec 6) : (f.driveLines v).rx = f.rx := by
  unfold FarEnd.driveLines; split <;> simp

@[simp] theorem driveLines_reply (v : BitVec 6) : (f.driveLines v).reply = f.reply := by
  unfold FarEnd.driveLines; split <;> simp

@[simp] theorem driveLines_speed (v : BitVec 6) : (f.driveLines v).speed = f.speed := by
  unfold FarEnd.driveLines; split <;> simp

@[simp] theorem driveLines_dirs (v : BitVec 6) : (f.driveLines v).dirs = f.dirs := by
  unfold FarEnd.driveLines; split <;> simp

@[simp] theorem driveLines_lines (v : BitVec 6) : (f.driveLines v).lines = v := by
  unfold FarEnd.driveLines; split <;> simp

@[simp] theorem driveLines_uioOpen (v : BitVec 6) : (f.driveLines v).uioOpen = f.uioOpen := by
  unfold FarEnd.driveLines; split <;> simp

@[simp] theorem setDirs_rx (v : BitVec 6) : (f.setDirs d v).rx = f.rx := by
  unfold FarEnd.setDirs; split <;> [skip; split] <;> simp

@[simp] theorem setDirs_reply (v : BitVec 6) : (f.setDirs d v).reply = f.reply := by
  unfold FarEnd.setDirs; split <;> [skip; split] <;> simp

@[simp] theorem setDirs_speed (v : BitVec 6) : (f.setDirs d v).speed = f.speed := by
  unfold FarEnd.setDirs; split <;> [skip; split] <;> simp

@[simp] theorem setDirs_lines (v : BitVec 6) : (f.setDirs d v).lines = f.lines := by
  unfold FarEnd.setDirs; split <;> [skip; split] <;> simp

@[simp] theorem setDirs_dirs (v : BitVec 6) : (f.setDirs d v).dirs = v := by
  unfold FarEnd.setDirs; split <;> [skip; split] <;> simp

@[simp] theorem setDirs_uioOpen (v : BitVec 6) : (f.setDirs d v).uioOpen = f.uioOpen := by
  unfold FarEnd.setDirs; split <;> [skip; split] <;> simp

@[simp] theorem endStream_rx : f.endStream.rx = f.rx := rfl

@[simp] theorem endStream_reply : f.endStream.reply = f.reply := rfl

@[simp] theorem endStream_selected : f.endStream.selected = f.selected := rfl

@[simp] theorem assertSelect_rx : (f.assertSelect d).rx = f.rx := by simp [FarEnd.assertSelect]

@[simp] theorem assertSelect_reply : (f.assertSelect d).reply = f.reply := by simp [FarEnd.assertSelect]

@[simp] theorem assertSelect_selected : (f.assertSelect d).selected = true := by simp [FarEnd.assertSelect]

@[simp] theorem deassertSelect_rx : f.deassertSelect.rx = f.rx := by simp [FarEnd.deassertSelect]

@[simp] theorem deassertSelect_reply : f.deassertSelect.reply = f.reply := by simp [FarEnd.deassertSelect]

@[simp] theorem deassertSelect_selected : f.deassertSelect.selected = false := by simp [FarEnd.deassertSelect]

@[simp] theorem setSpeed_rx (mode : BitVec 2) (dbl : Bool) : (f.setSpeed mode dbl).rx = f.rx := rfl

@[simp] theorem setSpeed_reply (mode : BitVec 2) (dbl : Bool) : (f.setSpeed mode dbl).reply = f.reply := rfl

@[simp] theorem loseReply_rx : (f.loseReply d).rx = f.rx := rfl
@[simp] theorem loseReply_uioOpen : (f.loseReply d).uioOpen = f.uioOpen := rfl
@[simp] theorem loseReply_lines : (f.loseReply d).lines = f.lines := rfl
@[simp] theorem loseReply_dirs : (f.loseReply d).dirs = f.dirs := rfl
@[simp] theorem loseReply_selected : (f.loseReply d).selected = f.selected := rfl
@[simp] theorem loseReply_speed : (f.loseReply d).speed = f.speed := rfl
@[simp] theorem loseReply_window : (f.loseReply d).window = f.window := rfl
@[simp] theorem loseReply_seqs : (f.loseReply d).seqs = f.seqs := rfl
@[simp] theorem loseReply_device : (f.loseReply d).device = f.device := rfl
@[simp] theorem loseReply_reply : (f.loseReply d).reply = f.reply.drop (Config.freeTaken d) := rfl
@[simp] theorem stream_loseReply (ws : Bytes) : (f.loseReply d).stream d ws = f.stream d ws := rfl

@[simp] theorem afterFailed_rx (p : Bytes) : (f.afterFailed d p).rx = f.rx := rfl

@[simp] theorem afterFailed_uioOpen (p : Bytes) : (f.afterFailed d p).uioOpen = false := rfl

end Frames

/-- The assert frame in closed form: its lines, its directions, the stream over, and the level (R59, R83). -/
theorem assertSelect_eq (d : Nat) (f : FarEnd) :
    f.assertSelect d =
      ({ f with lines := Config.csPatOn, dirs := Config.csDirMask, uioOpen := false } : FarEnd).setLevel true := by
  obtain ⟨rx, uo, lines, dirs, sel, sp, rep, win, sq, dev⟩ := f
  have h1 : Config.csPatOn[0] = false := by decide
  have h2 : Config.csDirMask[0] = true := by decide
  cases h : dirs[0] <;> cases sel <;>
    simp [FarEnd.assertSelect, FarEnd.driveLines, FarEnd.setDirs, FarEnd.endStream, FarEnd.setLevel, h, h1, h2]

/-- The deassert frame in closed form: its lines, the stream over, and the level (R59, R84). -/
theorem deassertSelect_eq (f : FarEnd) :
    f.deassertSelect = ({ f with lines := Config.csPatOff, uioOpen := false } : FarEnd).setLevel false := by
  obtain ⟨rx, uo, lines, dirs, sel, sp, rep, win, sq, dev⟩ := f
  have h1 : Config.csPatOff[0] = true := by decide
  cases h : dirs[0] <;> cases sel <;>
    simp [FarEnd.deassertSelect, FarEnd.driveLines, FarEnd.endStream, FarEnd.setLevel, h, h1]

/-- Some first bytes of the reply held are used up, and nothing else changes. -/
theorem loseReply_eq (d : Nat) (f : FarEnd) : ∃ j, f.loseReply d = { f with reply := f.reply.drop j } := ⟨_, rfl⟩

/-- After a speed packet cut short the far end has the old speed or the new one, and nothing else changes but the reply
held, which may be gone in part (R248). -/
theorem afterFailed_speedPacket (d : Nat) (mode : BitVec 2) (dbl : Bool) (f : FarEnd) :
    f.afterFailed d (speedPacket mode dbl) = { f.loseReply d with uioOpen := false } ∨
      f.afterFailed d (speedPacket mode dbl) = { f.loseReply d with speed := .set mode dbl, uioOpen := false } := by
  unfold FarEnd.afterFailed
  split
  · right
    have h : decodePacket (speedPacket mode dbl) = .ok (.setSpeed mode dbl) := decode_speedPacket mode dbl
    simp [FarEnd.runPacket, h, FarEnd.setSpeed]
  · left
    simp [FarEnd.runPart, speedPacket, Config.opI2cStream, Config.opSpiStream, Config.opUioStream]

/-- After a stream packet cut short some first `m` of its payload bytes have been shifted (I9); with none, nothing else
changes but the reply held, which may be gone in part. -/
theorem afterFailed_stream {d : Nat} {ws : Bytes} {f : FarEnd} (h1 : 1 ≤ ws.length) (h2 : ws.length ≤ Config.payMax) :
    ∃ m, m ≤ ws.length ∧
      f.afterFailed d (Config.opSpiStream :: ws) =
        if m = 0 then { f.loseReply d with uioOpen := false } else { f.stream d (ws.take m) with uioOpen := false } := by
  have hdec : decodePacket (Config.opSpiStream :: ws) = .ok (.spiStream ws) := decode_stream h1 h2
  have hrx (x : Bytes) : { f.stream d x with rx := f.rx, uioOpen := false } =
      ({ f.stream d x with uioOpen := false } : FarEnd) := by rw [← stream_rx d x f]
  unfold FarEnd.afterFailed
  split
  · refine ⟨ws.length, le_rfl, ?_⟩
    rw [if_neg (by omega), FarEnd.runPacket, hdec, List.take_length]
    exact hrx ws
  · rename_i h
    simp only [List.length_cons] at h
    simp only [FarEnd.runPart, if_true]
    by_cases h0 : Config.freeArrived d = 0
    · exact ⟨0, Nat.zero_le _, by rw [if_pos h0, if_pos rfl]; rfl⟩
    · by_cases h1 : Config.freeArrived d = 1
      · exact ⟨0, Nat.zero_le _, by rw [if_neg h0, if_pos h1, if_pos rfl]; rfl⟩
      · exact ⟨Config.freeArrived d - 1, by omega, by rw [if_neg h0, if_neg h1, if_neg (by omega)]; exact hrx _⟩

/-- A stream packet cut short, of any payload, leaves the speed. -/
theorem afterFailed_stream_speed (d : Nat) (ws : Bytes) (f : FarEnd) :
    (f.afterFailed d (Config.opSpiStream :: ws)).speed = f.speed := by
  unfold FarEnd.afterFailed
  split
  · by_cases h0 : ws.length = 0
    · simp [FarEnd.runPacket, decodePacket, h0]
    · by_cases h1 : Config.payMax < ws.length
      · simp [FarEnd.runPacket, decodePacket, h0, h1]
      · simp [FarEnd.runPacket, decodePacket, h0, h1]
  · simp only [FarEnd.runPart, if_true]
    split <;> [rfl; split] <;> simp

/-- A chip-select frame cut short leaves the speed, and of the reply held some last bytes. -/
theorem afterFailed_csframe (d : Nat) (sel : Bool) (f : FarEnd) :
    (f.afterFailed d (csframe sel)).speed = f.speed ∧ (f.afterFailed d (csframe sel)).reply = (f.loseReply d).reply := by
  have h1 : decodePacket (csframe true) = .ok .csAssert := decode_assert
  have h2 : decodePacket (csframe false) = .ok .csDeassert := decode_deassert
  have h3 : ∃ body, csframe sel = Config.opUioStream :: body := by cases sel <;> exact ⟨_, rfl⟩
  have h4 : Config.opUioStream ≠ Config.opSpiStream := by decide
  unfold FarEnd.afterFailed
  split
  · cases sel <;> simp [FarEnd.runPacket, h1, h2, FarEnd.assertSelect, FarEnd.deassertSelect, FarEnd.endStream]
  · obtain ⟨body, h⟩ := h3
    simp only [h, FarEnd.runPart, if_neg h4, if_true]
    split <;> simp

/-- A reset leaves what waits at the far end. -/
@[simp] theorem farAfterReset_rx (s : State) : s.farAfterReset.rx = s.far.rx := by
  unfold State.farAfterReset
  split <;> [rfl; split] <;> [rfl; split] <;> rfl

end Sys2Proof.Machine
end

