-- ==== Sys2Proof/Laws/State.lean ====
section
/-! SUPPORT. What each update of State does to each field: one lemma per field per update, each true by rfl. -/

namespace Sys2Proof.Machine

section Updates

variable (s : State)

@[simp] theorem setFsm_fsm (q : Fsm) : (s.setFsm q).st.fsm = q := rfl
@[simp] theorem setFsm_obuf (q : Fsm) : (s.setFsm q).st.obuf = s.st.obuf := rfl
@[simp] theorem setFsm_cap (q : Fsm) : (s.setFsm q).st.cap = s.st.cap := rfl
@[simp] theorem setFsm_k (q : Fsm) : (s.setFsm q).st.k = s.st.k := rfl
@[simp] theorem setFsm_acc (q : Fsm) : (s.setFsm q).st.acc = s.st.acc := rfl
@[simp] theorem setFsm_err (q : Fsm) : (s.setFsm q).st.err = s.st.err := rfl
@[simp] theorem setFsm_cs (q : Fsm) : (s.setFsm q).st.cs = s.st.cs := rfl
@[simp] theorem setFsm_spd (q : Fsm) : (s.setFsm q).st.spd = s.st.spd := rfl
@[simp] theorem setFsm_preq (q : Fsm) : (s.setFsm q).st.preq = s.st.preq := rfl
@[simp] theorem setFsm_rsp (q : Fsm) : (s.setFsm q).st.rsp = s.st.rsp := rfl
@[simp] theorem setFsm_far (q : Fsm) : (s.setFsm q).far = s.far := rfl
@[simp] theorem setFsm_req (q : Fsm) : (s.setFsm q).req = s.req := rfl
@[simp] theorem setFsm_rspReady (q : Fsm) : (s.setFsm q).rspReady = s.rspReady := rfl
@[simp] theorem setFsm_rsps (q : Fsm) : (s.setFsm q).rsps = s.rsps := rfl
@[simp] theorem setFsm_outs (q : Fsm) : (s.setFsm q).outs = s.outs := rfl
@[simp] theorem setFsm_ins (q : Fsm) : (s.setFsm q).ins = s.ins := rfl
@[simp] theorem setFsm_session (q : Fsm) : (s.setFsm q).session = s.session := rfl
@[simp] theorem setFsm_rst (q : Fsm) : (s.setFsm q).rst = s.rst := rfl
@[simp] theorem setFsm_trace (q : Fsm) : (s.setFsm q).trace = s.trace := rfl
@[simp] theorem setFsm_draws (q : Fsm) : (s.setFsm q).draws = s.draws := rfl

@[simp] theorem setCs_fsm (c : CsRecord) : (s.setCs c).st.fsm = s.st.fsm := rfl
@[simp] theorem setCs_obuf (c : CsRecord) : (s.setCs c).st.obuf = s.st.obuf := rfl
@[simp] theorem setCs_cap (c : CsRecord) : (s.setCs c).st.cap = s.st.cap := rfl
@[simp] theorem setCs_k (c : CsRecord) : (s.setCs c).st.k = s.st.k := rfl
@[simp] theorem setCs_acc (c : CsRecord) : (s.setCs c).st.acc = s.st.acc := rfl
@[simp] theorem setCs_err (c : CsRecord) : (s.setCs c).st.err = s.st.err := rfl
@[simp] theorem setCs_cs (c : CsRecord) : (s.setCs c).st.cs = c := rfl
@[simp] theorem setCs_spd (c : CsRecord) : (s.setCs c).st.spd = s.st.spd := rfl
@[simp] theorem setCs_preq (c : CsRecord) : (s.setCs c).st.preq = s.st.preq := rfl
@[simp] theorem setCs_rsp (c : CsRecord) : (s.setCs c).st.rsp = s.st.rsp := rfl
@[simp] theorem setCs_far (c : CsRecord) : (s.setCs c).far = s.far := rfl
@[simp] theorem setCs_req (c : CsRecord) : (s.setCs c).req = s.req := rfl
@[simp] theorem setCs_rspReady (c : CsRecord) : (s.setCs c).rspReady = s.rspReady := rfl
@[simp] theorem setCs_rsps (c : CsRecord) : (s.setCs c).rsps = s.rsps := rfl
@[simp] theorem setCs_outs (c : CsRecord) : (s.setCs c).outs = s.outs := rfl
@[simp] theorem setCs_ins (c : CsRecord) : (s.setCs c).ins = s.ins := rfl
@[simp] theorem setCs_session (c : CsRecord) : (s.setCs c).session = s.session := rfl
@[simp] theorem setCs_rst (c : CsRecord) : (s.setCs c).rst = s.rst := rfl
@[simp] theorem setCs_trace (c : CsRecord) : (s.setCs c).trace = s.trace := rfl
@[simp] theorem setCs_draws (c : CsRecord) : (s.setCs c).draws = s.draws := rfl

@[simp] theorem setSpd_fsm (v : Option (BitVec 2 × Bool)) : (s.setSpd v).st.fsm = s.st.fsm := rfl
@[simp] theorem setSpd_obuf (v : Option (BitVec 2 × Bool)) : (s.setSpd v).st.obuf = s.st.obuf := rfl
@[simp] theorem setSpd_cap (v : Option (BitVec 2 × Bool)) : (s.setSpd v).st.cap = s.st.cap := rfl
@[simp] theorem setSpd_k (v : Option (BitVec 2 × Bool)) : (s.setSpd v).st.k = s.st.k := rfl
@[simp] theorem setSpd_acc (v : Option (BitVec 2 × Bool)) : (s.setSpd v).st.acc = s.st.acc := rfl
@[simp] theorem setSpd_err (v : Option (BitVec 2 × Bool)) : (s.setSpd v).st.err = s.st.err := rfl
@[simp] theorem setSpd_cs (v : Option (BitVec 2 × Bool)) : (s.setSpd v).st.cs = s.st.cs := rfl
@[simp] theorem setSpd_spd (v : Option (BitVec 2 × Bool)) : (s.setSpd v).st.spd = v := rfl
@[simp] theorem setSpd_preq (v : Option (BitVec 2 × Bool)) : (s.setSpd v).st.preq = s.st.preq := rfl
@[simp] theorem setSpd_rsp (v : Option (BitVec 2 × Bool)) : (s.setSpd v).st.rsp = s.st.rsp := rfl
@[simp] theorem setSpd_far (v : Option (BitVec 2 × Bool)) : (s.setSpd v).far = s.far := rfl
@[simp] theorem setSpd_req (v : Option (BitVec 2 × Bool)) : (s.setSpd v).req = s.req := rfl
@[simp] theorem setSpd_rspReady (v : Option (BitVec 2 × Bool)) : (s.setSpd v).rspReady = s.rspReady := rfl
@[simp] theorem setSpd_rsps (v : Option (BitVec 2 × Bool)) : (s.setSpd v).rsps = s.rsps := rfl
@[simp] theorem setSpd_outs (v : Option (BitVec 2 × Bool)) : (s.setSpd v).outs = s.outs := rfl
@[simp] theorem setSpd_ins (v : Option (BitVec 2 × Bool)) : (s.setSpd v).ins = s.ins := rfl
@[simp] theorem setSpd_session (v : Option (BitVec 2 × Bool)) : (s.setSpd v).session = s.session := rfl
@[simp] theorem setSpd_rst (v : Option (BitVec 2 × Bool)) : (s.setSpd v).rst = s.rst := rfl
@[simp] theorem setSpd_trace (v : Option (BitVec 2 × Bool)) : (s.setSpd v).trace = s.trace := rfl
@[simp] theorem setSpd_draws (v : Option (BitVec 2 × Bool)) : (s.setSpd v).draws = s.draws := rfl

@[simp] theorem setRsp_fsm (r : Response) : (s.setRsp r).st.fsm = s.st.fsm := rfl
@[simp] theorem setRsp_obuf (r : Response) : (s.setRsp r).st.obuf = s.st.obuf := rfl
@[simp] theorem setRsp_cap (r : Response) : (s.setRsp r).st.cap = s.st.cap := rfl
@[simp] theorem setRsp_k (r : Response) : (s.setRsp r).st.k = s.st.k := rfl
@[simp] theorem setRsp_acc (r : Response) : (s.setRsp r).st.acc = s.st.acc := rfl
@[simp] theorem setRsp_err (r : Response) : (s.setRsp r).st.err = s.st.err := rfl
@[simp] theorem setRsp_cs (r : Response) : (s.setRsp r).st.cs = s.st.cs := rfl
@[simp] theorem setRsp_spd (r : Response) : (s.setRsp r).st.spd = s.st.spd := rfl
@[simp] theorem setRsp_preq (r : Response) : (s.setRsp r).st.preq = s.st.preq := rfl
@[simp] theorem setRsp_rsp (r : Response) : (s.setRsp r).st.rsp = r := rfl
@[simp] theorem setRsp_far (r : Response) : (s.setRsp r).far = s.far := rfl
@[simp] theorem setRsp_req (r : Response) : (s.setRsp r).req = s.req := rfl
@[simp] theorem setRsp_rspReady (r : Response) : (s.setRsp r).rspReady = s.rspReady := rfl
@[simp] theorem setRsp_rsps (r : Response) : (s.setRsp r).rsps = s.rsps := rfl
@[simp] theorem setRsp_outs (r : Response) : (s.setRsp r).outs = s.outs := rfl
@[simp] theorem setRsp_ins (r : Response) : (s.setRsp r).ins = s.ins := rfl
@[simp] theorem setRsp_session (r : Response) : (s.setRsp r).session = s.session := rfl
@[simp] theorem setRsp_rst (r : Response) : (s.setRsp r).rst = s.rst := rfl
@[simp] theorem setRsp_trace (r : Response) : (s.setRsp r).trace = s.trace := rfl
@[simp] theorem setRsp_draws (r : Response) : (s.setRsp r).draws = s.draws := rfl

@[simp] theorem raise_fsm (e : Error) : (s.raise e).st.fsm = s.st.fsm := rfl
@[simp] theorem raise_obuf (e : Error) : (s.raise e).st.obuf = s.st.obuf := rfl
@[simp] theorem raise_cap (e : Error) : (s.raise e).st.cap = s.st.cap := rfl
@[simp] theorem raise_k (e : Error) : (s.raise e).st.k = s.st.k := rfl
@[simp] theorem raise_acc (e : Error) : (s.raise e).st.acc = s.st.acc := rfl
@[simp] theorem raise_err (e : Error) : (s.raise e).st.err = firstError s.st.err e := rfl
@[simp] theorem raise_cs (e : Error) : (s.raise e).st.cs = s.st.cs := rfl
@[simp] theorem raise_spd (e : Error) : (s.raise e).st.spd = s.st.spd := rfl
@[simp] theorem raise_preq (e : Error) : (s.raise e).st.preq = s.st.preq := rfl
@[simp] theorem raise_rsp (e : Error) : (s.raise e).st.rsp = s.st.rsp := rfl
@[simp] theorem raise_far (e : Error) : (s.raise e).far = s.far := rfl
@[simp] theorem raise_req (e : Error) : (s.raise e).req = s.req := rfl
@[simp] theorem raise_rspReady (e : Error) : (s.raise e).rspReady = s.rspReady := rfl
@[simp] theorem raise_rsps (e : Error) : (s.raise e).rsps = s.rsps := rfl
@[simp] theorem raise_outs (e : Error) : (s.raise e).outs = s.outs := rfl
@[simp] theorem raise_ins (e : Error) : (s.raise e).ins = s.ins := rfl
@[simp] theorem raise_session (e : Error) : (s.raise e).session = s.session := rfl
@[simp] theorem raise_rst (e : Error) : (s.raise e).rst = s.rst := rfl
@[simp] theorem raise_trace (e : Error) : (s.raise e).trace = s.trace := rfl
@[simp] theorem raise_draws (e : Error) : (s.raise e).draws = s.draws := rfl

@[simp] theorem loadExchange_fsm (out : Bytes) (cap : BitVec 32) : (s.loadExchange out cap).st.fsm = s.st.fsm := rfl
@[simp] theorem loadExchange_obuf (out : Bytes) (cap : BitVec 32) : (s.loadExchange out cap).st.obuf = out := rfl
@[simp] theorem loadExchange_cap (out : Bytes) (cap : BitVec 32) : (s.loadExchange out cap).st.cap = cap := rfl
@[simp] theorem loadExchange_k (out : Bytes) (cap : BitVec 32) : (s.loadExchange out cap).st.k = 0 := rfl
@[simp] theorem loadExchange_acc (out : Bytes) (cap : BitVec 32) : (s.loadExchange out cap).st.acc = [] := rfl
@[simp] theorem loadExchange_err (out : Bytes) (cap : BitVec 32) : (s.loadExchange out cap).st.err = none := rfl
@[simp] theorem loadExchange_cs (out : Bytes) (cap : BitVec 32) : (s.loadExchange out cap).st.cs = s.st.cs := rfl
@[simp] theorem loadExchange_spd (out : Bytes) (cap : BitVec 32) : (s.loadExchange out cap).st.spd = s.st.spd := rfl
@[simp] theorem loadExchange_preq (out : Bytes) (cap : BitVec 32) : (s.loadExchange out cap).st.preq = s.st.preq := rfl
@[simp] theorem loadExchange_rsp (out : Bytes) (cap : BitVec 32) : (s.loadExchange out cap).st.rsp = s.st.rsp := rfl
@[simp] theorem loadExchange_far (out : Bytes) (cap : BitVec 32) : (s.loadExchange out cap).far = s.far := rfl
@[simp] theorem loadExchange_req (out : Bytes) (cap : BitVec 32) : (s.loadExchange out cap).req = s.req := rfl
@[simp] theorem loadExchange_rspReady (out : Bytes) (cap : BitVec 32) : (s.loadExchange out cap).rspReady = s.rspReady := rfl
@[simp] theorem loadExchange_rsps (out : Bytes) (cap : BitVec 32) : (s.loadExchange out cap).rsps = s.rsps := rfl
@[simp] theorem loadExchange_outs (out : Bytes) (cap : BitVec 32) : (s.loadExchange out cap).outs = s.outs := rfl
@[simp] theorem loadExchange_ins (out : Bytes) (cap : BitVec 32) : (s.loadExchange out cap).ins = s.ins := rfl
@[simp] theorem loadExchange_session (out : Bytes) (cap : BitVec 32) : (s.loadExchange out cap).session = s.session := rfl
@[simp] theorem loadExchange_rst (out : Bytes) (cap : BitVec 32) : (s.loadExchange out cap).rst = s.rst := rfl
@[simp] theorem loadExchange_trace (out : Bytes) (cap : BitVec 32) : (s.loadExchange out cap).trace = s.trace := rfl
@[simp] theorem loadExchange_draws (out : Bytes) (cap : BitVec 32) : (s.loadExchange out cap).draws = s.draws := rfl

@[simp] theorem loadSpeed_fsm (mode : BitVec 2) (dbl : Bool) : (s.loadSpeed mode dbl).st.fsm = s.st.fsm := rfl
@[simp] theorem loadSpeed_obuf (mode : BitVec 2) (dbl : Bool) : (s.loadSpeed mode dbl).st.obuf = s.st.obuf := rfl
@[simp] theorem loadSpeed_cap (mode : BitVec 2) (dbl : Bool) : (s.loadSpeed mode dbl).st.cap = s.st.cap := rfl
@[simp] theorem loadSpeed_k (mode : BitVec 2) (dbl : Bool) : (s.loadSpeed mode dbl).st.k = s.st.k := rfl
@[simp] theorem loadSpeed_acc (mode : BitVec 2) (dbl : Bool) : (s.loadSpeed mode dbl).st.acc = s.st.acc := rfl
@[simp] theorem loadSpeed_err (mode : BitVec 2) (dbl : Bool) : (s.loadSpeed mode dbl).st.err = none := rfl
@[simp] theorem loadSpeed_cs (mode : BitVec 2) (dbl : Bool) : (s.loadSpeed mode dbl).st.cs = s.st.cs := rfl
@[simp] theorem loadSpeed_spd (mode : BitVec 2) (dbl : Bool) : (s.loadSpeed mode dbl).st.spd = s.st.spd := rfl
@[simp] theorem loadSpeed_preq (mode : BitVec 2) (dbl : Bool) : (s.loadSpeed mode dbl).st.preq = (mode, dbl) := rfl
@[simp] theorem loadSpeed_rsp (mode : BitVec 2) (dbl : Bool) : (s.loadSpeed mode dbl).st.rsp = s.st.rsp := rfl
@[simp] theorem loadSpeed_far (mode : BitVec 2) (dbl : Bool) : (s.loadSpeed mode dbl).far = s.far := rfl
@[simp] theorem loadSpeed_req (mode : BitVec 2) (dbl : Bool) : (s.loadSpeed mode dbl).req = s.req := rfl
@[simp] theorem loadSpeed_rspReady (mode : BitVec 2) (dbl : Bool) : (s.loadSpeed mode dbl).rspReady = s.rspReady := rfl
@[simp] theorem loadSpeed_rsps (mode : BitVec 2) (dbl : Bool) : (s.loadSpeed mode dbl).rsps = s.rsps := rfl
@[simp] theorem loadSpeed_outs (mode : BitVec 2) (dbl : Bool) : (s.loadSpeed mode dbl).outs = s.outs := rfl
@[simp] theorem loadSpeed_ins (mode : BitVec 2) (dbl : Bool) : (s.loadSpeed mode dbl).ins = s.ins := rfl
@[simp] theorem loadSpeed_session (mode : BitVec 2) (dbl : Bool) : (s.loadSpeed mode dbl).session = s.session := rfl
@[simp] theorem loadSpeed_rst (mode : BitVec 2) (dbl : Bool) : (s.loadSpeed mode dbl).rst = s.rst := rfl
@[simp] theorem loadSpeed_trace (mode : BitVec 2) (dbl : Bool) : (s.loadSpeed mode dbl).trace = s.trace := rfl
@[simp] theorem loadSpeed_draws (mode : BitVec 2) (dbl : Bool) : (s.loadSpeed mode dbl).draws = s.draws := rfl

@[simp] theorem takeReply_fsm (b : Bytes) : (s.takeReply b).st.fsm = s.st.fsm := rfl
@[simp] theorem takeReply_obuf (b : Bytes) : (s.takeReply b).st.obuf = s.st.obuf := rfl
@[simp] theorem takeReply_cap (b : Bytes) : (s.takeReply b).st.cap = s.st.cap := rfl
@[simp] theorem takeReply_k (b : Bytes) : (s.takeReply b).st.k = s.st.k + 1 := rfl
@[simp] theorem takeReply_acc (b : Bytes) : (s.takeReply b).st.acc = accumulate (keepCount s.st.cap s.st.obuf.length) s.st.acc b := rfl
@[simp] theorem takeReply_err (b : Bytes) : (s.takeReply b).st.err = s.st.err := rfl
@[simp] theorem takeReply_cs (b : Bytes) : (s.takeReply b).st.cs = s.st.cs := rfl
@[simp] theorem takeReply_spd (b : Bytes) : (s.takeReply b).st.spd = s.st.spd := rfl
@[simp] theorem takeReply_preq (b : Bytes) : (s.takeReply b).st.preq = s.st.preq := rfl
@[simp] theorem takeReply_rsp (b : Bytes) : (s.takeReply b).st.rsp = s.st.rsp := rfl
@[simp] theorem takeReply_far (b : Bytes) : (s.takeReply b).far = s.far := rfl
@[simp] theorem takeReply_req (b : Bytes) : (s.takeReply b).req = s.req := rfl
@[simp] theorem takeReply_rspReady (b : Bytes) : (s.takeReply b).rspReady = s.rspReady := rfl
@[simp] theorem takeReply_rsps (b : Bytes) : (s.takeReply b).rsps = s.rsps := rfl
@[simp] theorem takeReply_outs (b : Bytes) : (s.takeReply b).outs = s.outs := rfl
@[simp] theorem takeReply_ins (b : Bytes) : (s.takeReply b).ins = s.ins := rfl
@[simp] theorem takeReply_session (b : Bytes) : (s.takeReply b).session = s.session := rfl
@[simp] theorem takeReply_rst (b : Bytes) : (s.takeReply b).rst = s.rst := rfl
@[simp] theorem takeReply_trace (b : Bytes) : (s.takeReply b).trace = s.trace := rfl
@[simp] theorem takeReply_draws (b : Bytes) : (s.takeReply b).draws = s.draws := rfl

@[simp] theorem respond_fsm (r : Response) : (s.respond r).st.fsm = .resp := rfl
@[simp] theorem respond_obuf (r : Response) : (s.respond r).st.obuf = s.st.obuf := rfl
@[simp] theorem respond_cap (r : Response) : (s.respond r).st.cap = s.st.cap := rfl
@[simp] theorem respond_k (r : Response) : (s.respond r).st.k = s.st.k := rfl
@[simp] theorem respond_acc (r : Response) : (s.respond r).st.acc = s.st.acc := rfl
@[simp] theorem respond_err (r : Response) : (s.respond r).st.err = s.st.err := rfl
@[simp] theorem respond_cs (r : Response) : (s.respond r).st.cs = s.st.cs := rfl
@[simp] theorem respond_spd (r : Response) : (s.respond r).st.spd = s.st.spd := rfl
@[simp] theorem respond_preq (r : Response) : (s.respond r).st.preq = s.st.preq := rfl
@[simp] theorem respond_rsp (r : Response) : (s.respond r).st.rsp = r := rfl
@[simp] theorem respond_far (r : Response) : (s.respond r).far = s.far := rfl
@[simp] theorem respond_req (r : Response) : (s.respond r).req = s.req := rfl
@[simp] theorem respond_rspReady (r : Response) : (s.respond r).rspReady = s.rspReady := rfl
@[simp] theorem respond_rsps (r : Response) : (s.respond r).rsps = s.rsps := rfl
@[simp] theorem respond_outs (r : Response) : (s.respond r).outs = s.outs := rfl
@[simp] theorem respond_ins (r : Response) : (s.respond r).ins = s.ins := rfl
@[simp] theorem respond_session (r : Response) : (s.respond r).session = s.session := rfl
@[simp] theorem respond_rst (r : Response) : (s.respond r).rst = s.rst := rfl
@[simp] theorem respond_trace (r : Response) : (s.respond r).trace = s.trace := rfl
@[simp] theorem respond_draws (r : Response) : (s.respond r).draws = s.draws := rfl

@[simp] theorem abort_fsm (e : Error) (q : Fsm) : (s.abort e q).st.fsm = q := rfl
@[simp] theorem abort_obuf (e : Error) (q : Fsm) : (s.abort e q).st.obuf = s.st.obuf := rfl
@[simp] theorem abort_cap (e : Error) (q : Fsm) : (s.abort e q).st.cap = s.st.cap := rfl
@[simp] theorem abort_k (e : Error) (q : Fsm) : (s.abort e q).st.k = s.st.k := rfl
@[simp] theorem abort_acc (e : Error) (q : Fsm) : (s.abort e q).st.acc = s.st.acc := rfl
@[simp] theorem abort_err (e : Error) (q : Fsm) : (s.abort e q).st.err = firstError s.st.err e := rfl
@[simp] theorem abort_cs (e : Error) (q : Fsm) : (s.abort e q).st.cs = s.st.cs := rfl
@[simp] theorem abort_spd (e : Error) (q : Fsm) : (s.abort e q).st.spd = s.st.spd := rfl
@[simp] theorem abort_preq (e : Error) (q : Fsm) : (s.abort e q).st.preq = s.st.preq := rfl
@[simp] theorem abort_rsp (e : Error) (q : Fsm) : (s.abort e q).st.rsp = s.st.rsp := rfl
@[simp] theorem abort_far (e : Error) (q : Fsm) : (s.abort e q).far = s.far := rfl
@[simp] theorem abort_req (e : Error) (q : Fsm) : (s.abort e q).req = s.req := rfl
@[simp] theorem abort_rspReady (e : Error) (q : Fsm) : (s.abort e q).rspReady = s.rspReady := rfl
@[simp] theorem abort_rsps (e : Error) (q : Fsm) : (s.abort e q).rsps = s.rsps := rfl
@[simp] theorem abort_outs (e : Error) (q : Fsm) : (s.abort e q).outs = s.outs := rfl
@[simp] theorem abort_ins (e : Error) (q : Fsm) : (s.abort e q).ins = s.ins := rfl
@[simp] theorem abort_session (e : Error) (q : Fsm) : (s.abort e q).session = s.session := rfl
@[simp] theorem abort_rst (e : Error) (q : Fsm) : (s.abort e q).rst = s.rst := rfl
@[simp] theorem abort_trace (e : Error) (q : Fsm) : (s.abort e q).trace = s.trace := rfl
@[simp] theorem abort_draws (e : Error) (q : Fsm) : (s.abort e q).draws = s.draws := rfl

@[simp] theorem handBack_fsm : (s.handBack).st.fsm = .idle := rfl
@[simp] theorem handBack_obuf : (s.handBack).st.obuf = s.st.obuf := rfl
@[simp] theorem handBack_cap : (s.handBack).st.cap = s.st.cap := rfl
@[simp] theorem handBack_k : (s.handBack).st.k = s.st.k := rfl
@[simp] theorem handBack_acc : (s.handBack).st.acc = s.st.acc := rfl
@[simp] theorem handBack_err : (s.handBack).st.err = s.st.err := rfl
@[simp] theorem handBack_cs : (s.handBack).st.cs = s.st.cs := rfl
@[simp] theorem handBack_spd : (s.handBack).st.spd = s.st.spd := rfl
@[simp] theorem handBack_preq : (s.handBack).st.preq = s.st.preq := rfl
@[simp] theorem handBack_rsp : (s.handBack).st.rsp = s.st.rsp := rfl
@[simp] theorem handBack_far : (s.handBack).far = s.far := rfl
@[simp] theorem handBack_req : (s.handBack).req = s.req := rfl
@[simp] theorem handBack_rspReady : (s.handBack).rspReady = s.rspReady := rfl
@[simp] theorem handBack_rsps : (s.handBack).rsps = s.rsps ++ [s.st.rsp] := rfl
@[simp] theorem handBack_outs : (s.handBack).outs = s.outs := rfl
@[simp] theorem handBack_ins : (s.handBack).ins = s.ins := rfl
@[simp] theorem handBack_session : (s.handBack).session = s.session := rfl
@[simp] theorem handBack_rst : (s.handBack).rst = s.rst := rfl
@[simp] theorem handBack_trace : (s.handBack).trace = s.trace := rfl
@[simp] theorem handBack_draws : (s.handBack).draws = s.draws := rfl

@[simp] theorem setFar_st (f : FarEnd) : (s.setFar f).st = s.st := rfl
@[simp] theorem setFar_far (f : FarEnd) : (s.setFar f).far = f := rfl
@[simp] theorem setFar_req (f : FarEnd) : (s.setFar f).req = s.req := rfl
@[simp] theorem setFar_rspReady (f : FarEnd) : (s.setFar f).rspReady = s.rspReady := rfl
@[simp] theorem setFar_rsps (f : FarEnd) : (s.setFar f).rsps = s.rsps := rfl
@[simp] theorem setFar_outs (f : FarEnd) : (s.setFar f).outs = s.outs := rfl
@[simp] theorem setFar_ins (f : FarEnd) : (s.setFar f).ins = s.ins := rfl
@[simp] theorem setFar_session (f : FarEnd) : (s.setFar f).session = s.session := rfl
@[simp] theorem setFar_rst (f : FarEnd) : (s.setFar f).rst = s.rst := rfl
@[simp] theorem setFar_trace (f : FarEnd) : (s.setFar f).trace = s.trace := rfl
@[simp] theorem setFar_draws (f : FarEnd) : (s.setFar f).draws = s.draws := rfl

@[simp] theorem setReq_st (r : List ReqRecord) : (s.setReq r).st = s.st := rfl
@[simp] theorem setReq_far (r : List ReqRecord) : (s.setReq r).far = s.far := rfl
@[simp] theorem setReq_req (r : List ReqRecord) : (s.setReq r).req = r := rfl
@[simp] theorem setReq_rspReady (r : List ReqRecord) : (s.setReq r).rspReady = s.rspReady := rfl
@[simp] theorem setReq_rsps (r : List ReqRecord) : (s.setReq r).rsps = s.rsps := rfl
@[simp] theorem setReq_outs (r : List ReqRecord) : (s.setReq r).outs = s.outs := rfl
@[simp] theorem setReq_ins (r : List ReqRecord) : (s.setReq r).ins = s.ins := rfl
@[simp] theorem setReq_session (r : List ReqRecord) : (s.setReq r).session = s.session := rfl
@[simp] theorem setReq_rst (r : List ReqRecord) : (s.setReq r).rst = s.rst := rfl
@[simp] theorem setReq_trace (r : List ReqRecord) : (s.setReq r).trace = s.trace := rfl
@[simp] theorem setReq_draws (r : List ReqRecord) : (s.setReq r).draws = s.draws := rfl

@[simp] theorem setOuts_st (a : List Answer) : (s.setOuts a).st = s.st := rfl
@[simp] theorem setOuts_far (a : List Answer) : (s.setOuts a).far = s.far := rfl
@[simp] theorem setOuts_req (a : List Answer) : (s.setOuts a).req = s.req := rfl
@[simp] theorem setOuts_rspReady (a : List Answer) : (s.setOuts a).rspReady = s.rspReady := rfl
@[simp] theorem setOuts_rsps (a : List Answer) : (s.setOuts a).rsps = s.rsps := rfl
@[simp] theorem setOuts_outs (a : List Answer) : (s.setOuts a).outs = a := rfl
@[simp] theorem setOuts_ins (a : List Answer) : (s.setOuts a).ins = s.ins := rfl
@[simp] theorem setOuts_session (a : List Answer) : (s.setOuts a).session = s.session := rfl
@[simp] theorem setOuts_rst (a : List Answer) : (s.setOuts a).rst = s.rst := rfl
@[simp] theorem setOuts_trace (a : List Answer) : (s.setOuts a).trace = s.trace := rfl
@[simp] theorem setOuts_draws (a : List Answer) : (s.setOuts a).draws = s.draws := rfl

@[simp] theorem setIns_st (a : List Answer) : (s.setIns a).st = s.st := rfl
@[simp] theorem setIns_far (a : List Answer) : (s.setIns a).far = s.far := rfl
@[simp] theorem setIns_req (a : List Answer) : (s.setIns a).req = s.req := rfl
@[simp] theorem setIns_rspReady (a : List Answer) : (s.setIns a).rspReady = s.rspReady := rfl
@[simp] theorem setIns_rsps (a : List Answer) : (s.setIns a).rsps = s.rsps := rfl
@[simp] theorem setIns_outs (a : List Answer) : (s.setIns a).outs = s.outs := rfl
@[simp] theorem setIns_ins (a : List Answer) : (s.setIns a).ins = a := rfl
@[simp] theorem setIns_session (a : List Answer) : (s.setIns a).session = s.session := rfl
@[simp] theorem setIns_rst (a : List Answer) : (s.setIns a).rst = s.rst := rfl
@[simp] theorem setIns_trace (a : List Answer) : (s.setIns a).trace = s.trace := rfl
@[simp] theorem setIns_draws (a : List Answer) : (s.setIns a).draws = s.draws := rfl

@[simp] theorem logTransfer_st (t : Transfer) : (s.logTransfer t).st = s.st := rfl
@[simp] theorem logTransfer_far (t : Transfer) : (s.logTransfer t).far = s.far := rfl
@[simp] theorem logTransfer_req (t : Transfer) : (s.logTransfer t).req = s.req := rfl
@[simp] theorem logTransfer_rspReady (t : Transfer) : (s.logTransfer t).rspReady = s.rspReady := rfl
@[simp] theorem logTransfer_rsps (t : Transfer) : (s.logTransfer t).rsps = s.rsps := rfl
@[simp] theorem logTransfer_outs (t : Transfer) : (s.logTransfer t).outs = s.outs := rfl
@[simp] theorem logTransfer_ins (t : Transfer) : (s.logTransfer t).ins = s.ins := rfl
@[simp] theorem logTransfer_session (t : Transfer) : (s.logTransfer t).session = s.session := rfl
@[simp] theorem logTransfer_rst (t : Transfer) : (s.logTransfer t).rst = s.rst := rfl
@[simp] theorem logTransfer_trace (t : Transfer) : (s.logTransfer t).trace = s.trace ++ [t] := rfl
@[simp] theorem logTransfer_draws (t : Transfer) : (s.logTransfer t).draws = s.draws := rfl

@[simp] theorem logResponse_st (r : Response) : (s.logResponse r).st = s.st := rfl
@[simp] theorem logResponse_far (r : Response) : (s.logResponse r).far = s.far := rfl
@[simp] theorem logResponse_req (r : Response) : (s.logResponse r).req = s.req := rfl
@[simp] theorem logResponse_rspReady (r : Response) : (s.logResponse r).rspReady = s.rspReady := rfl
@[simp] theorem logResponse_rsps (r : Response) : (s.logResponse r).rsps = s.rsps ++ [r] := rfl
@[simp] theorem logResponse_outs (r : Response) : (s.logResponse r).outs = s.outs := rfl
@[simp] theorem logResponse_ins (r : Response) : (s.logResponse r).ins = s.ins := rfl
@[simp] theorem logResponse_session (r : Response) : (s.logResponse r).session = s.session := rfl
@[simp] theorem logResponse_rst (r : Response) : (s.logResponse r).rst = s.rst := rfl
@[simp] theorem logResponse_trace (r : Response) : (s.logResponse r).trace = s.trace := rfl
@[simp] theorem logResponse_draws (r : Response) : (s.logResponse r).draws = s.draws := rfl

@[simp] theorem addDraws_st (n : Nat) : (s.addDraws n).st = s.st := rfl
@[simp] theorem addDraws_far (n : Nat) : (s.addDraws n).far = s.far := rfl
@[simp] theorem addDraws_req (n : Nat) : (s.addDraws n).req = s.req := rfl
@[simp] theorem addDraws_rspReady (n : Nat) : (s.addDraws n).rspReady = s.rspReady := rfl
@[simp] theorem addDraws_rsps (n : Nat) : (s.addDraws n).rsps = s.rsps := rfl
@[simp] theorem addDraws_outs (n : Nat) : (s.addDraws n).outs = s.outs := rfl
@[simp] theorem addDraws_ins (n : Nat) : (s.addDraws n).ins = s.ins := rfl
@[simp] theorem addDraws_session (n : Nat) : (s.addDraws n).session = s.session := rfl
@[simp] theorem addDraws_rst (n : Nat) : (s.addDraws n).rst = s.rst := rfl
@[simp] theorem addDraws_trace (n : Nat) : (s.addDraws n).trace = s.trace := rfl
@[simp] theorem addDraws_draws (n : Nat) : (s.addDraws n).draws = s.draws + n := rfl

@[simp] theorem deliver_st (p : Bytes) : (s.deliver p).st = s.st := rfl
@[simp] theorem deliver_far (p : Bytes) : (s.deliver p).far = { s.far with rx := p, uioOpen := false } := rfl
@[simp] theorem deliver_req (p : Bytes) : (s.deliver p).req = s.req := rfl
@[simp] theorem deliver_rspReady (p : Bytes) : (s.deliver p).rspReady = s.rspReady := rfl
@[simp] theorem deliver_rsps (p : Bytes) : (s.deliver p).rsps = s.rsps := rfl
@[simp] theorem deliver_outs (p : Bytes) : (s.deliver p).outs = s.outs := rfl
@[simp] theorem deliver_ins (p : Bytes) : (s.deliver p).ins = s.ins := rfl
@[simp] theorem deliver_session (p : Bytes) : (s.deliver p).session = s.session := rfl
@[simp] theorem deliver_rst (p : Bytes) : (s.deliver p).rst = s.rst := rfl
@[simp] theorem deliver_trace (p : Bytes) : (s.deliver p).trace = s.trace := rfl
@[simp] theorem deliver_draws (p : Bytes) : (s.deliver p).draws = s.draws := rfl

@[simp] theorem deliverFailed_st (p : Bytes) : (s.deliverFailed p).st = s.st := rfl
@[simp] theorem deliverFailed_far (p : Bytes) : (s.deliverFailed p).far = s.far.afterFailed s.draws p := rfl
@[simp] theorem deliverFailed_req (p : Bytes) : (s.deliverFailed p).req = s.req := rfl
@[simp] theorem deliverFailed_rspReady (p : Bytes) : (s.deliverFailed p).rspReady = s.rspReady := rfl
@[simp] theorem deliverFailed_rsps (p : Bytes) : (s.deliverFailed p).rsps = s.rsps := rfl
@[simp] theorem deliverFailed_outs (p : Bytes) : (s.deliverFailed p).outs = s.outs := rfl
@[simp] theorem deliverFailed_ins (p : Bytes) : (s.deliverFailed p).ins = s.ins := rfl
@[simp] theorem deliverFailed_session (p : Bytes) : (s.deliverFailed p).session = s.session := rfl
@[simp] theorem deliverFailed_rst (p : Bytes) : (s.deliverFailed p).rst = s.rst := rfl
@[simp] theorem deliverFailed_trace (p : Bytes) : (s.deliverFailed p).trace = s.trace := rfl
@[simp] theorem deliverFailed_draws (p : Bytes) : (s.deliverFailed p).draws = s.draws + (p.length + 1) := rfl

@[simp] theorem useReply_st : s.useReply.st = s.st := rfl
@[simp] theorem useReply_far : s.useReply.far = { s.far with reply := [] } := rfl
@[simp] theorem useReply_req : s.useReply.req = s.req := rfl
@[simp] theorem useReply_rspReady : s.useReply.rspReady = s.rspReady := rfl
@[simp] theorem useReply_rsps : s.useReply.rsps = s.rsps := rfl
@[simp] theorem useReply_outs : s.useReply.outs = s.outs := rfl
@[simp] theorem useReply_ins : s.useReply.ins = s.ins := rfl
@[simp] theorem useReply_session : s.useReply.session = s.session := rfl
@[simp] theorem useReply_rst : s.useReply.rst = s.rst := rfl
@[simp] theorem useReply_trace : s.useReply.trace = s.trace := rfl
@[simp] theorem useReply_draws : s.useReply.draws = s.draws := rfl

@[simp] theorem readFailed_st : s.readFailed.st = s.st := rfl
@[simp] theorem readFailed_far : s.readFailed.far = s.far.loseReply s.draws := rfl
@[simp] theorem readFailed_req : s.readFailed.req = s.req := rfl
@[simp] theorem readFailed_rspReady : s.readFailed.rspReady = s.rspReady := rfl
@[simp] theorem readFailed_rsps : s.readFailed.rsps = s.rsps := rfl
@[simp] theorem readFailed_outs : s.readFailed.outs = s.outs := rfl
@[simp] theorem readFailed_ins : s.readFailed.ins = s.ins := rfl
@[simp] theorem readFailed_session : s.readFailed.session = s.session := rfl
@[simp] theorem readFailed_rst : s.readFailed.rst = s.rst := rfl
@[simp] theorem readFailed_trace : s.readFailed.trace = s.trace := rfl
@[simp] theorem readFailed_draws : s.readFailed.draws = s.draws + 1 := rfl

@[simp] theorem assertReset_st : (s.assertReset).st = Block.reset := rfl
@[simp] theorem assertReset_far : (s.assertReset).far = s.farAfterReset := rfl
@[simp] theorem assertReset_req : (s.assertReset).req = s.req := rfl
@[simp] theorem assertReset_rspReady : (s.assertReset).rspReady = s.rspReady := rfl
@[simp] theorem assertReset_rsps : (s.assertReset).rsps = s.rsps := rfl
@[simp] theorem assertReset_outs : (s.assertReset).outs = s.outs := rfl
@[simp] theorem assertReset_ins : (s.assertReset).ins = s.ins := rfl
@[simp] theorem assertReset_session : (s.assertReset).session = s.session := rfl
@[simp] theorem assertReset_rst : (s.assertReset).rst = false := rfl
@[simp] theorem assertReset_trace : (s.assertReset).trace = s.trace := rfl
@[simp] theorem assertReset_draws : (s.assertReset).draws = s.draws + (Config.pktMax + 1) := rfl

end Updates

end Sys2Proof.Machine
end

