-- ==== Sys2Proof/Laws/Ops.lean ====
section
/-! SUPPORT. One specification lemma per shared operation: acceptance, the answers of the transport, the two transfers. -/

namespace Sys2Proof.Machine

theorem acceptInIdle_idle {s t : State} (h : s.st.fsm = .idle) : s.acceptInIdle t = .next t := by
  simp [State.acceptInIdle, State.reqReady, h]

theorem acceptInIdle_busy {s t : State} (h : s.st.fsm ≠ .idle) : s.acceptInIdle t = .next s := by
  simp [State.acceptInIdle, State.reqReady, h]

/-- Acceptance answers a next state always: the accepted one in IDLE, the same one otherwise. -/
theorem acceptInIdle_next {s t u : State} (h : s.acceptInIdle t = .next u) :
    (s.st.fsm = .idle ∧ u = t) ∨ (s.st.fsm ≠ .idle ∧ u = s) := by
  by_cases hi : s.st.fsm = .idle
  · rw [acceptInIdle_idle hi] at h; cases h; exact .inl ⟨hi, rfl⟩
  · rw [acceptInIdle_busy hi] at h; cases h; exact .inr ⟨hi, rfl⟩

/-- An OUT answer comes from the closed session, or is the first of the script. -/
theorem answerOut_some {s s1 : State} {a : Answer} (h : s.answerOut = some (a, s1)) :
    (∃ c, s.session = some c ∧ a = .fail c ∧ s1 = s) ∨
      (s.session = none ∧ ∃ more, s.outs = a :: more ∧ s1 = s.setOuts more) := by
  unfold State.answerOut at h
  split at h
  · cases h; exact .inl ⟨_, ‹_›, rfl, rfl⟩
  · split at h
    · cases h
    · cases h; exact .inr ⟨‹_›, _, ‹_›, rfl⟩

/-- An IN answer comes from the closed session, or is the first of the script. -/
theorem answerIn_some {s s1 : State} {a : Answer} (h : s.answerIn = some (a, s1)) :
    (∃ c, s.session = some c ∧ a = .fail c ∧ s1 = s) ∨
      (s.session = none ∧ ∃ more, s.ins = a :: more ∧ s1 = s.setIns more) := by
  unfold State.answerIn at h
  split at h
  · cases h; exact .inl ⟨_, ‹_›, rfl, rfl⟩
  · split at h
    · cases h
    · cases h; exact .inr ⟨‹_›, _, ‹_›, rfl⟩

theorem outResult_done_le {a : Answer} {len m : Nat} (h : outResult a len = .done m) : m ≤ len := by
  cases a with
  | upTo k => simp only [outResult, OutResult.done.injEq] at h; omega
  | fail c => cases h
  | timedOut => cases h

theorem inResult_data_le {a : Answer} {n : Nat} {held b : Bytes} (h : inResult a n held = .data b) :
    b.length ≤ n := by
  cases a with
  | upTo k => simp only [inResult, InResult.data.injEq] at h; subst h; simp
  | fail c => cases h
  | timedOut => cases h

theorem outResult_full {a : Answer} {len : Nat} (h : a.full = true) (hl : len ≤ Config.pktMax) :
    outResult a len = .done len := by
  cases a with
  | upTo k =>
    simp only [Answer.full, decide_eq_true_eq] at h
    simp only [outResult, OutResult.done.injEq]; omega
  | fail c => cases h
  | timedOut => cases h

theorem inResult_full {a : Answer} {held : Bytes} (h : a.full = true) (hl : held.length ≤ Config.pktMax) :
    inResult a held.length held = .data held := by
  cases a with
  | upTo k =>
    simp only [Answer.full, decide_eq_true_eq] at h
    have : min k held.length = held.length := by omega
    simp [inResult, this]
  | fail c => cases h
  | timedOut => cases h

/-- All an OUT transfer of `p` can do when it has a result: everything but the far end, the script, the trace and the
counter is as before; a full `Done` leaves the packet waiting at the far end; no other result leaves anything there. -/
structure OutTaken (p : Bytes) (s : State) (r : OutResult) (s1 : State) : Prop where
  answered : ∃ a s0, s.answerOut = some (a, s0) ∧ r = outResult a p.length ∧ s1.outs = s0.outs
  st_eq : s1.st = s.st
  req_eq : s1.req = s.req
  rspReady_eq : s1.rspReady = s.rspReady
  rsps_eq : s1.rsps = s.rsps
  ins_eq : s1.ins = s.ins
  session_eq : s1.session = s.session
  rst_eq : s1.rst = s.rst
  trace_eq : s1.trace = s.trace ++ [.out p r]
  delivered : r = .done p.length → s1.far = { s.far with rx := p, uioOpen := false } ∧ s1.draws = s.draws
  not_delivered : r ≠ .done p.length →
    s1.far = s.far.afterFailed s.draws p ∧ s1.draws = s.draws + (p.length + 1)

theorem xferOut_some {p : Bytes} {s s1 : State} {r : OutResult} (h : s.xferOut p = some (r, s1)) :
    OutTaken p s r s1 := by
  unfold State.xferOut at h
  split at h
  · cases h
  · rename_i a s0 ha
    simp only [Option.some.injEq, Prod.mk.injEq] at h
    obtain ⟨rfl, rfl⟩ := h
    have h0 : s0.st = s.st ∧ s0.req = s.req ∧ s0.rspReady = s.rspReady ∧ s0.rsps = s.rsps ∧ s0.ins = s.ins ∧
        s0.session = s.session ∧ s0.rst = s.rst ∧ s0.trace = s.trace ∧ s0.far = s.far ∧ s0.draws = s.draws := by
      obtain ⟨c, _, _, rfl⟩ | ⟨_, more, _, rfl⟩ := answerOut_some ha <;> simp
    obtain ⟨e1, e2, e3, e4, e5, e6, e7, e8, e9, e10⟩ := h0
    by_cases hd : outResult a p.length = .done p.length
    · constructor <;> simp [*, State.deliver]
    · constructor <;> simp [*]

/-- An OUT transfer has a result exactly when the transport has an answer. -/
theorem xferOut_none_iff {p : Bytes} {s : State} : s.xferOut p = none ↔ s.answerOut = none := by
  unfold State.xferOut; split <;> simp_all

theorem xferOut_of_answer {p : Bytes} {s s0 : State} {a : Answer} (h : s.answerOut = some (a, s0)) :
    ∃ s1, s.xferOut p = some (outResult a p.length, s1) := by
  unfold State.xferOut; simp [h]

/-- All an IN transfer of `n` bytes can do when it has a result. -/
structure InTaken (n : Nat) (s : State) (r : InResult) (s1 : State) : Prop where
  answered : ∃ a s0, s.answerIn = some (a, s0) ∧ r = inResult a n s.far.reply ∧ s1.ins = s0.ins
  st_eq : s1.st = s.st
  req_eq : s1.req = s.req
  rspReady_eq : s1.rspReady = s.rspReady
  rsps_eq : s1.rsps = s.rsps
  outs_eq : s1.outs = s.outs
  session_eq : s1.session = s.session
  rst_eq : s1.rst = s.rst
  trace_eq : s1.trace = s.trace ++ [.inp n r]
  taken : r.isFull n = true → s1.far = { s.far with reply := [] } ∧ s1.draws = s.draws
  not_taken : r.isFull n = false → s1.far = s.far.loseReply s.draws ∧ s1.draws = s.draws + 1

theorem xferIn_some {n : Nat} {s s1 : State} {r : InResult} (h : s.xferIn n = some (r, s1)) :
    InTaken n s r s1 := by
  unfold State.xferIn at h
  split at h
  · cases h
  · rename_i a s0 ha
    simp only [Option.some.injEq, Prod.mk.injEq] at h
    obtain ⟨rfl, rfl⟩ := h
    have h0 : s0.st = s.st ∧ s0.req = s.req ∧ s0.rspReady = s.rspReady ∧ s0.rsps = s.rsps ∧ s0.outs = s.outs ∧
        s0.session = s.session ∧ s0.rst = s.rst ∧ s0.trace = s.trace ∧ s0.far = s.far ∧ s0.draws = s.draws := by
      obtain ⟨c, _, _, rfl⟩ | ⟨_, more, _, rfl⟩ := answerIn_some ha <;> simp
    obtain ⟨e1, e2, e3, e4, e5, e6, e7, e8, e9, e10⟩ := h0
    cases hd : (inResult a n s0.far.reply).isFull n
    · constructor <;> simp_all
    · constructor <;> simp_all

/-- An IN transfer touches nothing of the far end but the reply held, of which some last bytes may stay. -/
theorem InTaken.far_eq {n : Nat} {s s1 : State} {r : InResult} (h : InTaken n s r s1) :
    ∃ j, s1.far = { s.far with reply := s.far.reply.drop j } := by
  cases hr : r.isFull n
  · exact ⟨_, (h.not_taken hr).1⟩
  · exact ⟨s.far.reply.length, by rw [(h.taken hr).1, List.drop_length]⟩

/-- An IN transfer leaves what waits at the far end. -/
theorem InTaken.far_rx {n : Nat} {s s1 : State} {r : InResult} (h : InTaken n s r s1) : s1.far.rx = s.far.rx := by
  obtain ⟨j, e⟩ := h.far_eq; rw [e]

theorem xferIn_none_iff {n : Nat} {s : State} : s.xferIn n = none ↔ s.answerIn = none := by
  unfold State.xferIn; split <;> simp_all

theorem xferIn_of_answer {n : Nat} {s s0 : State} {a : Answer} (h : s.answerIn = some (a, s0)) :
    ∃ s1, s.xferIn n = some (inResult a n s.far.reply, s1) := by
  have hf : s0.far = s.far := by
    obtain ⟨c, _, _, rfl⟩ | ⟨_, more, _, rfl⟩ := answerIn_some h <;> simp
  unfold State.xferIn; simp [h, hf]

end Sys2Proof.Machine
end

