-- ==== Sys2Proof/Laws/PerInstr.lean ====
section
/-! SUPPORT. Statements for all instructions, one lemma per constructor. `PacketBounds`: a packet is 1 to 32 bytes with the
opcode first (30_encoding.md R80); requests and sub-commands are no packets. -/

namespace Sys2Proof.Laws.PacketBounds

/-- If a well-formed instruction is encoded as a packet, the packet is 1 to `PKT_MAX` bytes and its first byte is one of
the three stream markers (R80). -/
def Statement (i : Instr) : Prop :=
  i.WellFormed → ∀ p, encode i = .packet p →
    1 ≤ p.length ∧ p.length ≤ Config.pktMax ∧
      (p.head? = some Config.opSpiStream ∨ p.head? = some Config.opUioStream ∨ p.head? = some Config.opI2cStream)

theorem xchg (out : Bytes) (cap : BitVec 32) : Statement (.xchg out cap) := fun _ _ h => nomatch h

theorem speed (mode : BitVec 2) (dbl : Bool) : Statement (.speed mode dbl) := fun _ _ h => nomatch h

theorem rev (b : Byte) : Statement (.rev b) := fun _ _ h => nomatch h

theorem csf (sel : Bool) : Statement (.csf sel) := fun _ _ h => nomatch h

theorem tile (payload : Bytes) : Statement (.tile payload) := fun _ _ h => nomatch h

theorem spiStream (wire : Bytes) : Statement (.spiStream wire) := by
  intro hw p h
  have hw' : 1 ≤ wire.length ∧ wire.length ≤ Config.payMax := of_decide_eq_true hw
  cases h
  simp only [Config.payMax] at hw'
  exact ⟨by simp, by simp [Config.pktMax]; omega, .inl rfl⟩

theorem csAssert : Statement .csAssert := by
  intro _ p h; cases h; exact ⟨by decide, by decide, .inr (.inl rfl)⟩

theorem csDeassert : Statement .csDeassert := by
  intro _ p h; cases h; exact ⟨by decide, by decide, .inr (.inl rfl)⟩

theorem uioStmOut (v : BitVec 6) : Statement (.uioStmOut v) := fun _ _ h => nomatch h

theorem uioStmDir (v : BitVec 6) : Statement (.uioStmDir v) := fun _ _ h => nomatch h

theorem uioStmEnd : Statement .uioStmEnd := fun _ _ h => nomatch h

theorem setSpeed (mode : BitVec 2) (dbl : Bool) : Statement (.setSpeed mode dbl) := by
  intro _ p h; cases h
  exact ⟨by simp, by simp [Config.pktMax], .inr (.inr rfl)⟩

end Sys2Proof.Laws.PacketBounds
end

