-- ==== Sys2Proof/Laws/Steps.lean ====
section
/-! SUPPORT. What a step can do, said once: which of its five forms it takes, what a packet or a sub-command at the far end
can change, and each of the block's own transactions. -/

namespace Sys2Proof.Machine

/-- `t` differs from `s` at most in the far end and in the counter of free values. -/
def OnlyFar (s t : State) : Prop := t = { s with far := t.far, draws := t.draws }

theorem OnlyFar.st_eq {s t : State} (h : OnlyFar s t) : t.st = s.st := by rw [h]

theorem OnlyFar.trace_eq {s t : State} (h : OnlyFar s t) : t.trace = s.trace := by rw [h]

/-- A packet is never a request. -/
theorem decode_packet_cases {p : Bytes} {i : Instr} (h : decode (.packet p) = .ok i) :
    (∃ ws, i = .spiStream ws ∧ p = Config.opSpiStream :: ws ∧ 1 ≤ ws.length ∧ ws.length ≤ Config.payMax) ∨
      (i = .csAssert ∧ p = assertFrame) ∨ (i = .csDeassert ∧ p = deassertFrame) ∨
      ∃ mode dbl, i = .setSpeed mode dbl ∧ p.head? = some Config.opI2cStream := by
  simp only [decode, decodePacket] at h
  split at h
  · cases h
  · rename_i op body
    split at h
    · rename_i hop
      split at h
      · cases h
      · split at h
        · cases h
        · cases h
          rename_i h1 h2
          exact .inl ⟨body, rfl, by rw [hop], by omega, by omega⟩
    · split at h
      · split at h
        · cases h; exact .inr (.inl ⟨rfl, ‹_›⟩)
        · split at h
          · cases h; exact .inr (.inr (.inl ⟨rfl, ‹_›⟩))
          · cases h
      · split at h
        · rename_i hop
          unfold decodeSpeed at h
          split at h
          · split at h
            · cases h; exact .inr (.inr (.inr ⟨_, _, rfl, by simp [hop]⟩))
            · cases h
          · cases h
        · cases h

/-- A sub-command is one of the three of R82. -/
theorem decode_subCommand_cases {b : Byte} {i : Instr} (h : decode (.subCommand b) = .ok i) :
    (∃ v, i = .uioStmOut v) ∨ (∃ v, i = .uioStmDir v) ∨ i = .uioStmEnd := by
  simp only [decode, decodeSubCommand] at h
  split at h
  · cases h; exact .inl ⟨_, rfl⟩
  · split at h
    · cases h; exact .inr (.inl ⟨_, rfl⟩)
    · split at h
      · cases h; exact .inr (.inr rfl)
      · cases h

/-- A request is one of the five of R22. -/
theorem decode_request_cases {r : ReqRecord} {i : Instr} (h : decode (.request r) = .ok i) :
    (∃ out cap, i = .xchg out cap ∧ out.length ≤ Config.lenMax) ∨ (∃ mode dbl, i = .speed mode dbl) ∨
      (∃ b, i = .rev b) ∨ (∃ sel, i = .csf sel) ∨ ∃ payload, i = .tile payload := by
  simp only [decode, decodeRequest] at h
  split at h
  · split at h
    · split at h
      · cases h; exact .inl ⟨_, _, rfl, ‹_›⟩
      · cases h
    · cases h
  split at h
  · split at h
    · cases h; exact .inr (.inl ⟨_, _, rfl⟩)
    · cases h
  split at h
  · split at h
    · cases h; exact .inr (.inr (.inl ⟨_, rfl⟩))
    · cases h
  split at h
  · split at h
    · cases h; exact .inr (.inr (.inr (.inl ⟨_, rfl⟩)))
    · cases h
  split at h
  · split at h
    · split at h
      · cases h; exact .inr (.inr (.inr (.inr ⟨_, rfl⟩)))
      · cases h
    · cases h
  · cases h

/-- A wire packet or a sub-command changes nothing but the far end and the counter. -/
theorem runCode_packet_onlyFar {p : Bytes} {s t : State} (h : runCode (.packet p) s = .next t) : OnlyFar s t := by
  unfold runCode at h
  split at h
  · rename_i i hi
    obtain ⟨ws, rfl, -, -, -⟩ | ⟨rfl, -⟩ | ⟨rfl, -⟩ | ⟨mode, dbl, rfl, -⟩ := decode_packet_cases hi
    · simp only [exec, execSpiStream] at h
      split at h
      · cases h
      · split at h
        · cases h
        · cases h; rfl
    · cases h; rfl
    · cases h; rfl
    · cases h; rfl
  · cases h

theorem runCode_subCommand_onlyFar {b : Byte} {s t : State} (h : runCode (.subCommand b) s = .next t) :
    OnlyFar s t := by
  unfold runCode at h
  split at h
  · rename_i i hi
    obtain ⟨v, rfl⟩ | ⟨v, rfl⟩ | rfl := decode_subCommand_cases hi
    · cases h; rfl
    · cases h; rfl
    · simp only [exec, execUioStmEnd] at h
      split at h
      · cases h; rfl
      · cases h
  · cases h

theorem fetchFar_none {s : State} : s.fetchFar = none ↔ s.far.rx = [] := by
  unfold State.fetchFar; split
  · simp [*]
  · split <;> simp [*]

theorem fetchFar_onlyFar {s s1 t : State} {c : Code} (h : s.fetchFar = some (c, s1)) (hr : runCode c s1 = .next t) :
    OnlyFar s t := by
  unfold State.fetchFar at h
  split at h
  · cases h
  · split at h
    · cases h
      have := runCode_subCommand_onlyFar hr
      unfold OnlyFar at *; rw [this]; rfl
    · cases h
      have := runCode_packet_onlyFar hr
      unfold OnlyFar at *; rw [this]; rfl

theorem runDelivered_empty {s : State} (h : s.far.rx = []) : runDelivered s = .next s := by
  simp [runDelivered, fetchFar_none.mpr h]

/-- Running what was delivered changes nothing but the far end and the counter. -/
theorem runDelivered_onlyFar {s t : State} (h : runDelivered s = .next t) : OnlyFar s t := by
  unfold runDelivered at h
  split at h
  · exact fetchFar_onlyFar ‹_› h
  · cases h; rfl

theorem step_reset {s : State} (h : s.rst = true) : step s = .next s.assertReset := by
  simp [step, runStep, h]

theorem step_request {s : State} {r : ReqRecord} {more : List ReqRecord} (hm : s.BlockMoves)
    (hi : s.st.fsm = .idle) (hr : s.req = r :: more) : step s = runCode (.request r) (s.setReq more) := by
  simp [step, runStep, hm.1, State.fetch, fetchFar_none.mpr hm.2, State.fetchReq, State.reqReady, hi, hr]

/-- With no reset, nothing waiting at the far end and no request to accept, the step is the block's transaction. -/
theorem step_block {s : State} (hm : s.BlockMoves) (hi : s.st.fsm = .idle → s.req = []) :
    step s = runDelivered (blockStep s) := by
  have hf : s.fetchReq = none := by
    unfold State.fetchReq State.reqReady
    by_cases h : s.st.fsm = .idle
    · simp [h, hi h]
    · simp [h]
  simp [step, runStep, hm.1, State.fetch, fetchFar_none.mpr hm.2, hf]

theorem step_busy {s : State} (hm : s.BlockMoves) (hi : s.st.fsm ≠ .idle) : step s = runDelivered (blockStep s) :=
  step_block hm (fun h => absurd h hi)

/-- The five forms of a step that answers a next state. -/
theorem step_cases {s t : State} (h : step s = .next t) :
    (s.rst = true ∧ t = s.assertReset) ∨
      (s.rst = false ∧ s.far.rx ≠ [] ∧ OnlyFar s t) ∨
      (s.BlockMoves ∧ s.st.fsm = .idle ∧
        ∃ r more i, s.req = r :: more ∧ decode (.request r) = .ok i ∧ exec i (s.setReq more) = .next t) ∨
      (s.BlockMoves ∧ s.st.fsm = .idle ∧ s.req = [] ∧ t = s) ∨
      (s.BlockMoves ∧ s.st.fsm ≠ .idle ∧ runDelivered (blockStep s) = .next t) := by
  cases hr : s.rst with
  | true => rw [step_reset hr] at h; cases h; exact .inl ⟨rfl, rfl⟩
  | false =>
    right
    by_cases hx : s.far.rx = []
    · right
      have hm : s.BlockMoves := ⟨hr, hx⟩
      by_cases hi : s.st.fsm = .idle
      · cases hq : s.req with
        | nil =>
          rw [step_block hm (fun _ => hq)] at h
          have hb : blockStep s = s := by simp [blockStep, hi]
          rw [hb, runDelivered_empty hx] at h; cases h
          exact .inr (.inl ⟨hm, hi, rfl, rfl⟩)
        | cons r more =>
          rw [step_request hm hi hq] at h
          unfold runCode at h
          split at h
          · exact .inl ⟨hm, hi, r, more, _, rfl, ‹_›, h⟩
          · cases h
      · rw [step_busy hm hi] at h
        exact .inr (.inr ⟨hm, hi, h⟩)
    · left
      refine ⟨rfl, hx, ?_⟩
      unfold step runStep State.fetch at h
      simp only [hr] at h
      cases hf : s.fetchFar with
      | none => exact absurd (fetchFar_none.mp hf) hx
      | some x =>
        obtain ⟨c, s1⟩ := x
        simp only [hf] at h
        exact fetchFar_onlyFar hf h

/-- CS_ON: hold, or the assert action with its result (R141, R162). -/
theorem csOnStep_cases (s : State) :
    (s.answerOut = none ∧ csOnStep s = s) ∨
      ∃ r s1, OutTaken (csframe true) s r s1 ∧
        csOnStep s =
          if r = .done 4 then (s1.setCs .asserted).setFsm (if 0 < packetCount s.st.obuf.length then .tx else .csOff)
          else (s1.setCs .unknown).abort (errOfOut r) .csOff := by
  unfold csOnStep
  cases h : s.xferOut (csframe true) with
  | none => exact .inl ⟨xferOut_none_iff.mp h, rfl⟩
  | some x =>
    obtain ⟨r, s1⟩ := x
    refine .inr ⟨r, s1, xferOut_some h, ?_⟩
    by_cases hr : r = .done 4 <;> simp [hr, csAfter]

/-- TX: hold, or stream packet `k` with its result (R163). -/
theorem txStep_cases (s : State) :
    (s.answerOut = none ∧ txStep s = s) ∨
      ∃ r s1, OutTaken (streamPacket s.st.obuf s.st.k) s r s1 ∧
        txStep s =
          if r = .done (streamPacket s.st.obuf s.st.k).length then s1.setFsm .rx else s1.abort (errOfOut r) .csOff := by
  unfold txStep
  cases h : s.xferOut (streamPacket s.st.obuf s.st.k) with
  | none => exact .inl ⟨xferOut_none_iff.mp h, by simp only [h]⟩
  | some x => obtain ⟨r, s1⟩ := x; exact .inr ⟨r, s1, xferOut_some h, by simp only [h]⟩

/-- RX: hold, or the reply to packet `k` with its result (R164). -/
theorem rxStep_cases (s : State) :
    (s.answerIn = none ∧ rxStep s = s) ∨
      ∃ r s1, InTaken (payloadCount s.st.obuf s.st.k) s r s1 ∧
        ((∃ b, r = .data b ∧ b.length = payloadCount s.st.obuf s.st.k ∧
            rxStep s =
              (s1.takeReply b).setFsm (if s.st.k + 1 < packetCount s.st.obuf.length then .tx else .csOff)) ∨
          ((∀ b, r = .data b → b.length < payloadCount s.st.obuf s.st.k) ∧
            rxStep s = s1.abort (errOfIn r) .csOff)) := by
  unfold rxStep
  cases h : s.xferIn (payloadCount s.st.obuf s.st.k) with
  | none => exact .inl ⟨xferIn_none_iff.mp h, by simp only [h]⟩
  | some x =>
    obtain ⟨r, s1⟩ := x
    refine .inr ⟨r, s1, xferIn_some h, ?_⟩
    cases r with
    | fail c => exact .inr ⟨by simp, by simp only [h]⟩
    | timedOut => exact .inr ⟨by simp, by simp only [h]⟩
    | data b =>
      by_cases hb : b.length = payloadCount s.st.obuf s.st.k
      · exact .inl ⟨b, rfl, hb, by simp only [h, if_pos hb]⟩
      · refine .inr ⟨fun b' hb' => ?_, by simp only [h, if_neg hb]⟩
        cases hb'
        obtain ⟨a, s0, -, ha, -⟩ := (xferIn_some h).answered
        exact Nat.lt_of_le_of_ne (inResult_data_le ha.symm) hb

/-- CS_OFF: hold, or the deassert action with its result, then the response (R142, R166). -/
theorem csOffStep_cases (s : State) :
    (s.answerOut = none ∧ csOffStep s = s) ∨
      ∃ r s1, OutTaken (csframe false) s r s1 ∧
        csOffStep s =
          if r = .done 3 then (s1.setCs .deasserted).respond (exchangeResponse s.st.err s.st.acc)
          else
            ((s1.setCs .unknown).raise (errOfOut r)).respond
              (exchangeResponse (firstError s.st.err (errOfOut r)) s.st.acc) := by
  unfold csOffStep
  cases h : s.xferOut (csframe false) with
  | none => exact .inl ⟨xferOut_none_iff.mp h, rfl⟩
  | some x =>
    obtain ⟨r, s1⟩ := x
    refine .inr ⟨r, s1, xferOut_some h, ?_⟩
    have hst := (xferOut_some h).st_eq
    by_cases hr : r = .done 3 <;> simp [hr, csAfter, hst]

/-- SPD: hold, or the speed packet with its result, then the response (R200). -/
theorem spdStep_cases (s : State) :
    (s.answerOut = none ∧ spdStep s = s) ∨
      ∃ r s1, OutTaken (speedPacket s.st.preq.1 s.st.preq.2) s r s1 ∧
        spdStep s =
          if r = .done 3 then (s1.setSpd (some s.st.preq)).respond (.okBytes [])
          else
            ((s1.setSpd none).raise (errOfOut r)).respond
              (exchangeResponse (firstError s.st.err (errOfOut r)) []) := by
  unfold spdStep
  cases h : s.xferOut (speedPacket s.st.preq.1 s.st.preq.2) with
  | none => exact .inl ⟨xferOut_none_iff.mp h, rfl⟩
  | some x =>
    obtain ⟨r, s1⟩ := x
    refine .inr ⟨r, s1, xferOut_some h, ?_⟩
    have hst := (xferOut_some h).st_eq
    by_cases hr : r = .done 3 <;> simp [hr, spdAfter, hst]

/-- A whole packet waiting at the far end is decoded and run. -/
theorem run_of_delivered {s' : State} {p : Bytes} {i : Instr} (h : s'.far.rx = p) (hne : p ≠ [])
    (hu : s'.far.uioOpen = false) (hd : decode (.packet p) = .ok i) :
    runDelivered s' = exec i (s'.setFar { s'.far with rx := [] }) := by
  cases p with
  | nil => exact absurd rfl hne
  | cons b more => simp [runDelivered, State.fetchFar, h, hu, runCode, hd]

/-- Running a packet or a sub-command leaves what else waits at the far end. -/
theorem runCode_wire_rx {c : Code} {s t : State} (hc : ∀ r, c ≠ .request r) (h : runCode c s = .next t) :
    t.far.rx = s.far.rx := by
  unfold runCode at h
  split at h
  · rename_i i hi
    cases c with
    | request r => exact absurd rfl (hc r)
    | packet p =>
      obtain ⟨ws, rfl, -, -, -⟩ | ⟨rfl, -⟩ | ⟨rfl, -⟩ | ⟨mode, dbl, rfl, -⟩ := decode_packet_cases hi
      · simp only [exec, execSpiStream] at h
        split at h
        · cases h
        · split at h
          · cases h
          · cases h; simp
      · cases h; simp
      · cases h; simp
      · cases h; simp
    | subCommand b =>
      obtain ⟨v, rfl⟩ | ⟨v, rfl⟩ | rfl := decode_subCommand_cases hi
      · cases h; simp
      · cases h; simp
      · simp only [exec, execUioStmEnd] at h
        split at h
        · cases h; simp
        · cases h
  · cases h

/-- A packet that decodes is always run to a next state, with nothing left waiting and the block as it was; a stream
packet leaves as many reply bytes as it has payload bytes. -/
theorem deliver_ok {s' : State} {p : Bytes} {i : Instr} (h : s'.far.rx = p) (hne : p ≠ [])
    (hu : s'.far.uioOpen = false) (hd : decode (.packet p) = .ok i) :
    ∃ t, runDelivered s' = .next t ∧ t.far.rx = [] ∧ t.st = s'.st ∧ t.req = s'.req ∧
      ∀ ws, i = .spiStream ws → t.far.reply.length = ws.length := by
  have hx : ∃ t, runDelivered s' = .next t ∧ (∀ ws, i = .spiStream ws → t.far.reply.length = ws.length) := by
    rw [run_of_delivered h hne hu hd]
    obtain ⟨ws, rfl, _, l1, l2⟩ | ⟨rfl, hh⟩ | ⟨rfl, hh⟩ | ⟨m, d, rfl, hh⟩ := decode_packet_cases hd
    · have h1' : ¬ ws.length = 0 := by omega
      have h2' : ¬ Config.payMax < ws.length := by omega
      refine ⟨_, by simp only [exec, execSpiStream, if_neg h1', if_neg h2']; rfl, ?_⟩
      rintro ws' ⟨⟩; simp
    · exact ⟨_, rfl, by simp⟩
    · exact ⟨_, rfl, by simp⟩
    · exact ⟨_, rfl, by simp⟩
  obtain ⟨t, ht, hr⟩ := hx
  have ho := runDelivered_onlyFar ht
  refine ⟨t, ht, ?_, ho.st_eq, by rw [ho], hr⟩
  rw [run_of_delivered h hne hu hd] at ht
  have : runCode (.packet p) (s'.setFar { s'.far with rx := [] }) = .next t := by
    unfold runCode; rw [hd]; exact ht
  rw [runCode_wire_rx (by simp) this]; rfl

/-- The block's transaction takes no request. -/
theorem blockStep_req (s : State) : (blockStep s).req = s.req := by
  unfold blockStep
  split
  · rfl
  · obtain ⟨_, e⟩ | ⟨r, s1, ho, e⟩ := csOnStep_cases s <;> rw [e]
    split <;> simp [ho.req_eq]
  · obtain ⟨_, e⟩ | ⟨r, s1, ho, e⟩ := txStep_cases s <;> rw [e]
    split <;> simp [ho.req_eq]
  · obtain ⟨_, e⟩ | ⟨r, s1, ho, ⟨b, _, _, e⟩ | ⟨_, e⟩⟩ := rxStep_cases s <;> rw [e] <;> simp [ho.req_eq]
  · obtain ⟨_, e⟩ | ⟨r, s1, ho, e⟩ := csOffStep_cases s <;> rw [e]
    split <;> simp [ho.req_eq]
  · obtain ⟨_, e⟩ | ⟨r, s1, ho, e⟩ := spdStep_cases s <;> rw [e]
    split <;> simp [ho.req_eq]
  · unfold respStep; split <;> simp

/-- The three things accepting a request can do. -/
theorem request_st {s t : State} {r : ReqRecord} {i : Instr} (hd : decode (.request r) = .ok i)
    (hf : s.st.fsm = .idle) (he : exec i s = .next t) :
    (∃ out cap, out.length ≤ Config.lenMax ∧ t = (s.loadExchange out cap).setFsm .csOn) ∨
      (∃ mode dbl, t = (s.loadSpeed mode dbl).setFsm .spd) ∨ ∃ rsp, t = s.respond rsp := by
  obtain ⟨out, cap, rfl, hl⟩ | ⟨m, d, rfl⟩ | ⟨b, rfl⟩ | ⟨b, rfl⟩ | ⟨b, rfl⟩ := decode_request_cases hd
  all_goals
    obtain ⟨_, rfl⟩ | ⟨hx, _⟩ := acceptInIdle_next he
    rotate_left
    · exact absurd hf hx
  · exact .inl ⟨_, _, hl, rfl⟩
  · exact .inr (.inl ⟨_, _, rfl⟩)
  · exact .inr (.inr ⟨_, rfl⟩)
  · exact .inr (.inr ⟨_, rfl⟩)
  · exact .inr (.inr ⟨_, rfl⟩)

end Sys2Proof.Machine
end

