-- ==== Sys2Proof/Tests/Slice0.lean ====
section
/-! SUPPORT. Tests. Expected values come from the spec: the encodings of 30_encoding.md, the worked examples and vectors of
95_test_vectors.md, or hand calculation from a rule. The `witness_` theorems show, for each statement with hypotheses, states
and operands that meet them, clause by clause and at the ends of their ranges. -/

namespace Sys2Proof.Tests

open Sys2Proof Sys2Proof.Machine

/-! ### Helpers -/

/-- Does an outcome give a next state that has this property? -/
def nextHas (p : State → Bool) : Host.Outcome State Fault Refusal → Bool
  | .next t => p t
  | .fault _ => false
  | .refused _ => false

/-- Idle, deselected, on a loopback, with a transport that moves everything it is given. -/
def base : State :=
  { State.reset with
    far := { FarEnd.initial with selected := false, lines := 0x37#6, dirs := 0x3F#6, device := .echo }
    outs := [.upTo 32, .upTo 32, .upTo 32, .upTo 32]
    ins := [.upTo 32, .upTo 32] }

/-- In the middle of `XCHG [05 00], 2` in state `q`, packet 0 not yet answered. -/
def busy (q : Fsm) : State :=
  { base with st := { Block.reset with fsm := q, obuf := [0x05#8, 0x00#8], cap := 2#32, cs := .asserted } }

/-- In RX of it, with the loopback's reply held. -/
def inRx : State := { busy .rx with far := { (busy .rx).far with selected := true, reply := [0xA0#8, 0x00#8] } }

/-- `base` with a request on REQ. -/
def asking (r : ReqRecord) : State := { base with req := [r] }

/-- `base` with bytes waiting at the far end, as a packet or inside an open IO stream. -/
def waiting (p : Bytes) (io : Bool) : State := { base with far := { base.far with rx := p, uioOpen := io } }

/-! ### WellFormed: an ill-formed term for each check -/

theorem test_wf_xchg_too_long (out : Bytes) (cap : BitVec 32) (h : Config.lenMax < out.length) :
    ¬ (Instr.xchg out cap).WellFormed := fun hw => Nat.not_lt.mpr (of_decide_eq_true hw) h

theorem test_wf_tile_too_long (payload : Bytes) (h : Config.lenMax < payload.length) :
    ¬ (Instr.tile payload).WellFormed := fun hw => Nat.not_lt.mpr (of_decide_eq_true hw) h

/-- There are such payloads. -/
theorem test_wf_too_long_exists : ∃ out : Bytes, Config.lenMax < out.length :=
  ⟨List.replicate (Config.lenMax + 1) 0x00#8, List.length_replicate ▸ Nat.lt_succ_self Config.lenMax⟩

theorem test_wf_spiStream_range :
    ¬ (Instr.spiStream []).WellFormed ∧ ¬ (Instr.spiStream (List.replicate 32 0x00#8)).WellFormed := by decide

/-! ### Decoding, one written-out code per constructor; and each row of the table, run as the first instruction -/

theorem test_decode_xchg :
    decode (.request ⟨0x01#8, .exchange [0x9F#8] 4#32⟩) = .ok (.xchg [0x9F#8] 4#32) ∧
      decodeTableWord 8 0x01 = some (.xchg [] 0#32) ∧
      nextHas (fun t => t.st.fsm = .csOn) (step (State.reset.withFetchWord 8 0x01)) = true := by decide

theorem test_decode_speed :
    decode (.request ⟨0x02#8, .busSpeed 3#2 true⟩) = .ok (.speed 3#2 true) ∧
      decodeTableWord 8 0x02 = some (.speed 0#2 false) ∧
      nextHas (fun t => t.st.fsm = .spd) (step (State.reset.withFetchWord 8 0x02)) = true := by decide

theorem test_decode_rev :
    decode (.request ⟨0x10#8, .oneByte 0x9F#8⟩) = .ok (.rev 0x9F#8) ∧
      decodeTableWord 8 0x10 = some (.rev 0x00#8) ∧
      nextHas (fun t => t.st.rsp = .okBytes [0x00#8]) (step (State.reset.withFetchWord 8 0x10)) = true := by decide

theorem test_decode_csf :
    decode (.request ⟨0x11#8, .oneFlag true⟩) = .ok (.csf true) ∧
      decodeTableWord 8 0x11 = some (.csf false) ∧
      nextHas (fun t => t.st.rsp = .okBytes [0xAB#8, 0xB7#8, 0x20#8]) (step (State.reset.withFetchWord 8 0x11)) = true := by
  decide

theorem test_decode_tile :
    decode (.request ⟨0x12#8, .manyBytes [0x05#8]⟩) = .ok (.tile [0x05#8]) ∧
      decodeTableWord 8 0x12 = some (.tile []) ∧
      nextHas (fun t => t.st.rsp = .okPackets []) (step (State.reset.withFetchWord 8 0x12)) = true := by decide

theorem test_decode_spiStream :
    decode (.packet [0xA8#8, 0xA0#8, 0x00#8]) = .ok (.spiStream [0xA0#8, 0x00#8]) ∧
      decodeTableWord 8 0xA8 = some (.spiStream [0x00#8]) ∧
      nextHas (fun t => t.far.reply.length = 1) (step (State.reset.withFetchWord 8 0xA8)) = true := by decide

theorem test_decode_csAssert :
    decode (.packet [0xAB#8, 0xB6#8, 0x7F#8, 0x20#8]) = .ok .csAssert ∧
      decodeTableWord 32 0xABB67F20 = some .csAssert ∧
      nextHas (fun t => t.far.lines = 0x36#6) (step ((waiting [] false).withFetchWord 32 0xABB67F20)) = true := by decide

theorem test_decode_csDeassert :
    decode (.packet [0xAB#8, 0xB7#8, 0x20#8]) = .ok .csDeassert ∧
      decodeTableWord 24 0xABB720 = some .csDeassert ∧
      nextHas (fun t => t.far.lines = 0x37#6) (step ((waiting [] false).withFetchWord 24 0xABB720)) = true := by decide

theorem test_decode_uioStmOut :
    decode (.subCommand 0xB6#8) = .ok (.uioStmOut 0x36#6) ∧
      decodeTableWord 8 0x80 = some (.uioStmOut 0x00#6) ∧
      nextHas (fun t => t.far.lines = 0x00#6) (step (State.reset.withFetchWord 8 0x80)) = true := by decide

theorem test_decode_uioStmDir :
    decode (.subCommand 0x7F#8) = .ok (.uioStmDir 0x3F#6) ∧
      decodeTableWord 8 0x40 = some (.uioStmDir 0x00#6) ∧
      nextHas (fun t => t.far.dirs = 0x00#6) (step (State.reset.withFetchWord 8 0x40)) = true := by decide

theorem test_decode_uioStmEnd :
    decode (.subCommand 0x20#8) = .ok .uioStmEnd ∧
      decodeTableWord 8 0x20 = some .uioStmEnd ∧
      nextHas (fun t => t.far.uioOpen = false) (step (State.reset.withFetchWord 8 0x20)) = true := by decide

theorem test_decode_setSpeed :
    decode (.packet [0xAA#8, 0x66#8, 0x00#8]) = .ok (.setSpeed 2#2 true) ∧
      decodeTableWord 24 0xAA6000 = some (.setSpeed 0#2 false) ∧
      nextHas (fun t => t.far.speed = .set 0#2 false) (step (State.reset.withFetchWord 24 0xAA6000)) = true := by decide

/-- The two frames, placed as the first instruction after reset, run to a next state. -/
theorem test_frames_from_reset :
    nextHas (fun _ => true) (step (State.reset.withFetchWord 32 0xABB67F20)) = true ∧
      nextHas (fun _ => true) (step (State.reset.withFetchWord 24 0xABB720)) = true := by decide

/-! ### Vectors of 95_test_vectors.md -/

/-- V-REV, and the first and last entries of two rows of its table. -/
theorem test_rev_vectors :
    rev8 0x00#8 = 0x00#8 ∧ rev8 0xFF#8 = 0xFF#8 ∧ rev8 0x01#8 = 0x80#8 ∧ rev8 0x80#8 = 0x01#8 ∧
      rev8 0x9F#8 = 0xF9#8 ∧ rev8 0x05#8 = 0xA0#8 ∧ rev8 0x18#8 = 0x18#8 ∧ rev8 0xA5#8 = 0xA5#8 ∧
      rev8 0xAA#8 = 0x55#8 ∧ rev8 0x3C#8 = 0x3C#8 ∧ rev8 0xD0#8 = 0x0B#8 ∧ rev8 0x6F#8 = 0xF6#8 := by decide

/-- V-TILE: the packet lengths for payloads of 0, 1, 31, 32, 62, 63, 82 and 94 zero bytes. -/
theorem test_tile_lengths :
    ([0, 1, 31, 32, 62, 63, 82, 94].map fun n => (tile (List.replicate n 0x00#8)).map List.length) =
      [[], [2], [32], [32, 2], [32, 32], [32, 32, 2], [32, 32, 21], [32, 32, 32, 2]] := by decide

/-- V-TILE: the last row of the contents table, bytes 0x01 to 0x20. -/
theorem test_tile_contents :
    tile ((List.range 32).map fun i => BitVec.ofNat 8 (i + 1)) =
      [[0xA8#8, 0x80#8, 0x40#8, 0xC0#8, 0x20#8, 0xA0#8, 0x60#8, 0xE0#8, 0x10#8, 0x90#8, 0x50#8, 0xD0#8, 0x30#8,
        0xB0#8, 0x70#8, 0xF0#8, 0x08#8, 0x88#8, 0x48#8, 0xC8#8, 0x28#8, 0xA8#8, 0x68#8, 0xE8#8, 0x18#8, 0x98#8,
        0x58#8, 0xD8#8, 0x38#8, 0xB8#8, 0x78#8, 0xF8#8], [0xA8#8, 0x04#8]] := by decide

/-- E1: the assert frame fails; the error is recorded and the block goes on to CS_OFF. -/
theorem test_assert_fails (c : Config.ErrCode) :
    ∃ t, step { busy .csOn with outs := [.fail c] } = .next t ∧ t.st.err = some (.transportFailed c) ∧
      t.st.fsm = .csOff := ⟨_, rfl, rfl, rfl⟩

/-- X1's first transfer and R59. -/
theorem test_assert_sent :
    nextHas (fun t => t.trace = [.out [0xAB#8, 0xB6#8, 0x7F#8, 0x20#8] (.done 4)] && t.far.selected)
      (step (busy .csOn)) = true := by decide

/-- E3's second transfer under ECHO: the packet goes out and its reply is held. -/
theorem test_packet_sent :
    nextHas (fun t => t.trace = [.out [0xA8#8, 0xA0#8, 0x00#8] (.done 3)] && t.far.reply = [0xA0#8, 0x00#8])
      (step (busy .tx)) = true := by decide

/-- E4: a reply of one byte where two were asked for is discarded. -/
theorem test_short_reply :
    nextHas (fun t => t.st.err = some (.protocolShortReply 1) && t.st.acc = [])
      (step { inRx with ins := [.upTo 1] }) = true := by decide

/-- E5 before its last transfer: the reply is taken, reversed. -/
theorem test_reply_taken :
    nextHas (fun t => t.st.acc = [0x05#8, 0x00#8] && t.st.k = 1) (step inRx) = true := by decide

/-- E6's last transfer: the first error wins, and the record is UNKNOWN. -/
theorem test_first_error_wins (c1 c2 : Config.ErrCode) :
    ∃ t,
      step { busy .csOff with
        st := { (busy .csOff).st with err := some (.transportFailed c1) }
        outs := [.fail c2] } = .next t ∧
      t.st.rsp = .err (.transportFailed c1) ∧ t.st.cs = .unknown := ⟨_, rfl, rfl, rfl⟩

/-- Q5 and Q7 of V-SPEED. -/
theorem test_speed_sent :
    nextHas (fun t => t.trace = [.out [0xAA#8, 0x67#8, 0x00#8] (.done 3)] && t.st.spd = some (3#2, true))
        (step { base with st := { Block.reset with fsm := .spd, preq := (3#2, true) } }) = true ∧
      nextHas (fun t => t.st.rsp = .err (.transportShortWrite 1) && t.st.spd = none)
        (step { base with st := { Block.reset with fsm := .spd, preq := (2#2, false) }, outs := [.upTo 1] }) = true := by
  decide

/-- P1's fourth transfer: FLASH with status 02 answers FF 40 to the status command. -/
theorem test_flash_status :
    nextHas (fun t => t.far.reply = [0xFF#8, 0x40#8])
      (exec (.spiStream [0xA0#8, 0x00#8])
        { base with far := { base.far with selected := true, device := .flash 0x02#8 (0xEF#8, 0x40#8, 0x18#8) } }) =
      true := by decide

/-- Section 0 of the vectors: the write-enable command takes effect when the deassert frame arrives. -/
theorem test_flash_write_enable :
    nextHas (fun t => t.far.device = .flash 0x02#8 (0xEF#8, 0x40#8, 0x18#8) && t.far.seqs = [[0x60#8]])
      (exec .csDeassert
        { base with
          far := { base.far with
            selected := true
            window := [0x60#8]
            device := .flash 0x00#8 (0xEF#8, 0x40#8, 0x18#8) } }) = true := by decide

/-- R92: the opcode alone is no stream packet; R91: no request has op code 0x13. -/
theorem test_reserved :
    decode (.packet [0xA8#8]) = .error .emptyStream ∧
      decode (.packet [0xAB#8, 0xB6#8, 0x20#8]) = .error .reservedUioStream ∧
      decode (.packet [0xAA#8, 0x68#8, 0x00#8]) = .error .reservedSpeedPacket ∧
      decode (.packet [0xA9#8, 0x00#8]) = .error (.reservedOpcode 0xA9#8) ∧
      decode (.subCommand 0xC0#8) = .error (.reservedSubCommand 0xC0#8) ∧
      decode (.request ⟨0x13#8, .oneByte 0x00#8⟩) = .error (.noSuchRequest 0x13#8) ∧
      decode (.request ⟨0x10#8, .oneFlag true⟩) = .error (.operandsDoNotFit 0x10#8) := by decide

/-! ### Witnesses -/

/-- An outcome that passes a test is a next state that passes it. -/
theorem next_of {p : State → Bool} {o : Host.Outcome State Fault Refusal} (h : nextHas p o = true) :
    ∃ t, o = .next t ∧ p t = true := by
  cases o with
  | next t => exact ⟨t, rfl, h⟩
  | fault r => cases r
  | refused r => cases h

theorem witness_DecodeEncodeRoundTrip :
    (Instr.spiStream [0x00#8]).WellFormed ∧ (Instr.spiStream (List.replicate 31 0xFF#8)).WellFormed ∧
      (Instr.xchg [] 0#32).WellFormed ∧ (Instr.tile [0x01#8]).WellFormed ∧ Instr.csAssert.WellFormed := by decide

theorem witness_DecodedCodeIsTheEncoding :
    decode (.packet [0xA8#8, 0x00#8]) = .ok (.spiStream [0x00#8]) ∧
      decode (.subCommand 0xBF#8) = .ok (.uioStmOut 0x3F#6) := by decide

/-- A packet of opcode and 32 bytes, and one of the opcode alone, are none of the four kinds. -/
theorem witness_ReservedEncodingsAreRefused_packet :
    ∀ p ∈ [[0xA8#8], 0xA8#8 :: List.replicate 32 0x00#8, [0x00#8]],
      (waiting p false).rst = false ∧ p ≠ [] ∧ (waiting p false).far.rx = p ∧ (waiting p false).far.uioOpen = false ∧
        (∀ ws : Bytes, 1 ≤ ws.length → ws.length ≤ 31 → p ≠ 0xA8#8 :: ws) ∧
        p ≠ [0xAB#8, 0xB6#8, 0x7F#8, 0x20#8] ∧ p ≠ [0xAB#8, 0xB7#8, 0x20#8] ∧
        ∀ mode dbl, p ≠ speedPacket mode dbl := by
  intro p hp
  simp only [List.mem_cons, List.not_mem_nil, or_false] at hp
  rcases hp with rfl | rfl | rfl
  · exact ⟨rfl, by decide, rfl, rfl, fun ws h1 _ h => by cases h; simp at h1, by decide, by decide, by decide⟩
  · exact ⟨rfl, by decide, rfl, rfl, fun ws _ h2 h => by cases h; simp at h2, by decide, by decide, by decide⟩
  · exact ⟨rfl, by decide, rfl, rfl, fun ws _ _ h => (by cases h), by decide, by decide, by decide⟩

theorem witness_ReservedEncodingsAreRefused_other :
    (∀ b ∈ [0x00#8, 0x1F#8, 0x21#8, 0x3F#8, 0xC0#8, 0xFF#8],
        (waiting [b] true).rst = false ∧ (waiting [b] true).far.rx = [b] ∧ (waiting [b] true).far.uioOpen = true ∧
          b &&& 0xC0#8 ≠ 0x80#8 ∧ b &&& 0xC0#8 ≠ 0x40#8 ∧ b ≠ 0x20#8) ∧
      ∀ op ∈ [0x00#8, 0x03#8, 0x0F#8, 0x13#8],
        let r : ReqRecord := ⟨op, .oneByte 0x00#8⟩
        (asking r).rst = false ∧ (asking r).far.rx = [] ∧ (asking r).st.fsm = .idle ∧ (asking r).req = [r] ∧
          op ≠ 0x01#8 ∧ op ≠ 0x02#8 ∧ op ≠ 0x10#8 ∧ op ≠ 0x11#8 ∧ op ≠ 0x12#8 := by decide

theorem witness_StepRunsDecodedInstruction :
    (let s := asking ⟨0x10#8, .oneByte 0x05#8⟩;
      s.rst = false ∧ s.far.rx = [] ∧ s.st.fsm = .idle ∧ s.req = [⟨0x10#8, .oneByte 0x05#8⟩] ∧
        decode (.request ⟨0x10#8, .oneByte 0x05#8⟩) = .ok (.rev 0x05#8)) ∧
      (let s := waiting [0xA8#8, 0x00#8] false;
        s.rst = false ∧ s.far.rx = [0xA8#8, 0x00#8] ∧ s.far.uioOpen = false ∧
          decode (.packet [0xA8#8, 0x00#8]) = .ok (.spiStream [0x00#8])) ∧
      let s := waiting [0x80#8, 0x20#8] true;
      s.rst = false ∧ s.far.rx = [0x80#8, 0x20#8] ∧ s.far.uioOpen = true ∧
        decode (.subCommand 0x80#8) = .ok (.uioStmOut 0x00#6) := by decide

theorem witness_TransferRunsItsPacket :
    (busy .tx).BlockMoves ∧ (busy .tx).st.fsm ≠ .idle ∧ (blockStep (busy .tx)).far.rx = [0xA8#8, 0xA0#8, 0x00#8] ∧
      decode (.packet [0xA8#8, 0xA0#8, 0x00#8]) = .ok (.spiStream [0xA0#8, 0x00#8]) :=
  ⟨⟨rfl, rfl⟩, by decide, by decide, by decide⟩

theorem witness_BlockHoldsWithoutResult :
    (∀ q ∈ [Fsm.csOn, .tx, .csOff, .spd],
        let s : State := { busy q with outs := [] }
        s.BlockMoves ∧ s.session = none ∧ s.outs = [] ∧ s.st.fsm = q) ∧
      (let s : State := { inRx with ins := [] };
        s.BlockMoves ∧ s.session = none ∧ s.ins = [] ∧ s.st.fsm = .rx) ∧
      (let s : State := { busy .resp with rspReady := false };
        s.BlockMoves ∧ s.rspReady = false ∧ s.st.fsm = .resp) ∧
      base.BlockMoves ∧ base.req = [] ∧ base.st.fsm = .idle :=
  ⟨fun _ _ => ⟨⟨rfl, rfl⟩, rfl, rfl, rfl⟩, ⟨⟨rfl, rfl⟩, rfl, rfl, rfl⟩, ⟨⟨rfl, rfl⟩, rfl, rfl⟩, ⟨rfl, rfl⟩, rfl, rfl⟩

/-- 63 bytes make three packets: a first, one before the last and a last. -/
theorem witness_TileSplitsGreedily :
    (tile (List.replicate 63 0x00#8)).length = 3 ∧ (tile (List.replicate 63 0x00#8))[1]?.isSome = true ∧
      (tile (List.replicate 63 0x00#8)).getLast?.isSome = true ∧ ([] : Bytes).length = 0 := by decide

theorem witness_TileCountingLaws : 2 < (tile (List.replicate 63 0x00#8)).length ∧
    [0xA8#8, 0x00#8] ∈ tile (List.replicate 63 0x00#8) := by decide

/-- Both cases of the statements on accepting a request: RevAnswersReversedByte, CsfAnswersFrame, TileAnswersPackets,
XchgIsAccepted, SpeedSendsOnePacket, PureRequestsTakeTwoSteps. -/
theorem witness_requests : base.st.fsm = .idle ∧ (busy .tx).st.fsm ≠ .idle := by decide

theorem witness_RevAnswersReversedByte :
    ∀ i : Nat, i ≤ 7 → (0x18#8 : Byte).getLsbD i = (0x18#8 : Byte).getLsbD (7 - i) := by
  intro i hi; interval_cases i <;> rfl

theorem witness_TileAnswersPackets :
    ∀ n ∈ [0, 31, 32, 62, 63], (List.replicate n 0x00#8 : Bytes).length = n := by simp

theorem witness_PureRequestsTakeTwoSteps :
    (∃ b, Instr.rev 0x05#8 = .rev b) ∧ (∃ sel, Instr.csf true = .csf sel) ∧ (∃ x, Instr.tile [] = .tile x) ∧
      base.st.fsm = .idle ∧ base.BlockMoves ∧ base.rspReady = true :=
  ⟨⟨_, rfl⟩, ⟨_, rfl⟩, ⟨_, rfl⟩, rfl, ⟨rfl, rfl⟩, rfl⟩

/-- A state in SPD. -/
def inSpd (a : Answer) : State := { base with st := { Block.reset with fsm := .spd, preq := (3#2, true) }, outs := [a] }

theorem witness_SpeedSendsOnePacket :
    ∀ a ∈ [Answer.upTo 3, .upTo 2, .fail (Config.errCode 0), .timedOut],
      (inSpd a).BlockMoves ∧ (inSpd a).st.fsm = .spd ∧ (inSpd a).st.preq = (3#2, true) ∧
        (inSpd a).answerOut = some (a, { inSpd a with outs := [] }) ∧
        (outResult a 3 = .done 3 ↔ a = .upTo 3) := by
  intro a ha
  refine ⟨⟨rfl, rfl⟩, rfl, rfl, rfl, ?_⟩
  revert a; decide

theorem witness_BusyRequestsWait :
    encode (.rev 0x05#8) = .request ⟨0x10#8, .oneByte 0x05#8⟩ ∧ (busy .tx).st.fsm ≠ .idle ∧ (busy .tx).rst = false ∧
      (∃ t, step (busy .tx) = .next t) ∧
      ({ busy .resp with rspReady := false } : State).BlockMoves ∧ (busy .resp).st.fsm = .resp := by
  obtain ⟨t, h, _⟩ := next_of (p := fun _ => true) (o := step (busy .tx)) (by decide)
  exact ⟨by decide, by decide, rfl, ⟨t, h⟩, ⟨rfl, rfl⟩, rfl⟩

/-- A state of the exchange in `q` whose transport has this one answer to an OUT transfer. -/
def answered (q : Fsm) (a : Answer) : State := { busy q with outs := [a] }

theorem witness_CsOnSendsAssertFrame :
    ∀ a ∈ [Answer.upTo 4, .upTo 3, .upTo 0, .fail (Config.errCode 0), .timedOut],
      (answered .csOn a).BlockMoves ∧ (answered .csOn a).st.fsm = .csOn ∧
        (answered .csOn a).answerOut = some (a, { answered .csOn a with outs := [] }) ∧
        (outResult a 4 = .done 4 ↔ a = .upTo 4) := by
  intro a ha
  refine ⟨⟨rfl, rfl⟩, rfl, rfl, ?_⟩
  revert a; decide

/-- The same with no packet to send: `XCHG []`. -/
theorem witness_CsOnSendsAssertFrame_empty :
    let s : State := { answered .csOn (.upTo 4) with st := { (busy .csOn).st with obuf := [] } }
    s.BlockMoves ∧ s.st.fsm = .csOn ∧ s.st.obuf = [] ∧ s.answerOut = some (.upTo 4, { s with outs := [] }) ∧
      outResult (.upTo 4) 4 = .done 4 := ⟨⟨rfl, rfl⟩, rfl, rfl, rfl, by decide⟩

theorem witness_TxSendsStreamPacket :
    ∀ a ∈ [Answer.upTo 3, .upTo 2, .upTo 0, .fail (Config.errCode 0), .timedOut],
      (answered .tx a).BlockMoves ∧ (answered .tx a).st.fsm = .tx ∧
        31 * (answered .tx a).st.k < (answered .tx a).st.obuf.length ∧
        (answered .tx a).answerOut = some (a, { answered .tx a with outs := [] }) ∧
        (outResult a 3 = .done 3 ↔ a = .upTo 3) := by
  intro a ha
  refine ⟨⟨rfl, rfl⟩, rfl, (by decide : 31 * 0 < 2), rfl, ?_⟩
  revert a; decide

/-- `inRx` whose transport has this one answer to an IN transfer. -/
def answeredIn (a : Answer) : State := { inRx with ins := [a] }

theorem witness_RxTakesReply :
    ∀ a ∈ [Answer.upTo 2, .upTo 1, .upTo 0, .fail (Config.errCode 0), .timedOut],
      (answeredIn a).BlockMoves ∧ (answeredIn a).st.fsm = .rx ∧
        (answeredIn a).answerIn = some (a, { answeredIn a with ins := [] }) ∧
        (inResult a 2 (answeredIn a).far.reply = .data [0xA0#8, 0x00#8] ↔ a = .upTo 2) := by
  intro a ha
  refine ⟨⟨rfl, rfl⟩, rfl, rfl, ?_⟩
  revert a; decide

/-- The same with a second packet to come, so that the block goes back to TX. -/
theorem witness_RxTakesReply_more :
    let s : State := { answeredIn (.upTo 31) with
      st := { inRx.st with obuf := List.replicate 32 0x05#8 }
      far := { inRx.far with reply := List.replicate 31 0xA0#8 } }
    s.BlockMoves ∧ s.st.fsm = .rx ∧ s.answerIn = some (.upTo 31, { s with ins := [] }) ∧
      inResult (.upTo 31) 31 s.far.reply = .data (List.replicate 31 0xA0#8) ∧
      min 31 (s.st.obuf.length - 31 * s.st.k) = 31 ∧ 31 * (s.st.k + 1) < s.st.obuf.length := by
  refine ⟨⟨rfl, rfl⟩, rfl, rfl, by decide, by decide, by decide⟩

theorem witness_CsOffSendsDeassertFrame :
    ∀ a ∈ [Answer.upTo 3, .upTo 2, .upTo 0, .fail (Config.errCode 0), .timedOut],
      (answered .csOff a).BlockMoves ∧ (answered .csOff a).st.fsm = .csOff ∧
        (answered .csOff a).answerOut = some (a, { answered .csOff a with outs := [] }) ∧
        (outResult a 3 = .done 3 ↔ a = .upTo 3) := by
  intro a ha
  refine ⟨⟨rfl, rfl⟩, rfl, rfl, ?_⟩
  revert a; decide

theorem witness_RespHandsBackResponse :
    (busy .resp).BlockMoves ∧ (busy .resp).st.fsm = .resp ∧ (busy .resp).rspReady = true ∧
      ({ busy .resp with rspReady := false } : State).BlockMoves := ⟨⟨rfl, rfl⟩, rfl, rfl, ⟨rfl, rfl⟩⟩

theorem witness_FirstErrorWins :
    let s : State := { answered .csOff (.upTo 2) with
      st := { (busy .csOff).st with err := some (.protocolShortReply 0) } }
    base.st.err = none ∧ s.BlockMoves ∧ s.st.fsm = .csOff ∧ s.st.err = some (.protocolShortReply 0) ∧
      s.answerOut = some (.upTo 2, { s with outs := [] }) ∧ outResult (.upTo 2) 3 ≠ .done 3 :=
  ⟨rfl, ⟨rfl, rfl⟩, rfl, rfl, rfl, by decide⟩

/-- The invariant holds in the states of the exchange of `busy`. -/
theorem busy_inv (q : Fsm) (h : q ≠ .csOn) : (busy q).st.Inv where
  obuf_bounded := by show 2 ≤ 2 ^ 32 - 1; decide
  k_le := Nat.zero_le _
  k_lt := fun _ => (by decide : 0 < packetCount 2)
  acc_le_cap := by show 0 ≤ min 2 0; decide
  acc_le_obuf := by show 0 ≤ 2; decide
  selected := fun _ => ⟨rfl, rfl⟩
  fresh := fun hq => absurd hq h
  speeding := fun _ => rfl

/-- The same in CS_ON. -/
theorem csOn_inv : (busy .csOn).st.Inv where
  obuf_bounded := by show 2 ≤ 2 ^ 32 - 1; decide
  k_le := Nat.zero_le _
  k_lt := fun _ => (by decide : 0 < packetCount 2)
  acc_le_cap := by show 0 ≤ min 2 0; decide
  acc_le_obuf := by show 0 ≤ 2; decide
  selected := fun _ => ⟨rfl, rfl⟩
  fresh := fun _ => ⟨rfl, rfl, rfl⟩
  speeding := fun _ => rfl

/-- A timed-out transfer in each state that can raise an error. -/
theorem witness_ErrorsFollowTheTable :
    ∀ q ∈ [Fsm.csOn, .tx, .rx, .csOff, .spd],
      let s : State := { busy q with outs := [.timedOut], ins := [.timedOut] }
      s.BlockMoves ∧ s.st.Inv ∧ s.st.err = none ∧
        ∃ t, step s = .next t ∧ t.st.err = some .transportTimedOut := by
  intro q hq s
  have hs : nextHas (fun t => t.st.err = some .transportTimedOut) (step s) = true := by
    simp only [s]; clear s; revert q; decide
  have hi : s.st.Inv := by
    by_cases h : q = .csOn
    · subst h; exact csOn_inv
    · exact busy_inv q h
  obtain ⟨t, h1, h2⟩ := next_of hs
  exact ⟨⟨rfl, rfl⟩, hi, rfl, t, h1, of_decide_eq_true h2⟩

theorem witness_AbortSavesOnlyTheError :
    ∀ q ∈ [Fsm.csOn, .tx, .rx, .csOff, .spd],
      let s : State := { busy q with outs := [.timedOut], ins := [.timedOut] }
      s.st.fsm = q ∧ s.BlockMoves ∧ s.st.Inv ∧ s.st.err = none ∧
        ∃ t, step s = .next t ∧ t.st.err = some .transportTimedOut :=
  fun q hq => ⟨rfl, witness_ErrorsFollowTheTable q hq⟩

/-- `base` asked for an exchange. -/
def askingFor (out : Bytes) (cap : BitVec 32) : State := asking ⟨0x01#8, .exchange out cap⟩

theorem presents (out : Bytes) (cap : BitVec 32) (h : out.length ≤ Config.lenMax) :
    (askingFor out cap).Presents out cap := ⟨h, rfl, ⟨rfl, rfl⟩, rfl, rfl⟩

theorem answers (out : Bytes) (cap : BitVec 32) (n m : Nat) (hn : n ≤ 4) (hm : m ≤ 2) :
    (askingFor out cap).Answers n m where
  opened := rfl
  outs_enough := hn
  outs_full := fun a h => by
    have h' := List.mem_of_mem_take h
    simp only [askingFor, asking, base, List.mem_cons, List.not_mem_nil, or_false] at h'
    rcases h' with rfl | rfl | rfl | rfl <;> rfl
  ins_enough := hm
  ins_full := fun a h => by
    have h' := List.mem_of_mem_take h
    simp only [askingFor, asking, base, List.mem_cons, List.not_mem_nil, or_false] at h'
    rcases h' with rfl | rfl <;> rfl

theorem witness_ClosedSessionFailsExchange :
    ({ askingFor [0x05#8, 0x00#8] 2#32 with session := some (Config.errCode 0) } : State).Presents [0x05#8, 0x00#8] 2#32 ∧
      ({ askingFor [0x05#8, 0x00#8] 2#32 with session := some (Config.errCode 0) } : State).session = some (Config.errCode 0) :=
  ⟨⟨by decide, rfl, ⟨rfl, rfl⟩, rfl, rfl⟩, rfl⟩

theorem witness_SpiStreamShiftsAndHoldsReply :
    (∀ n ∈ [1, 31], 1 ≤ (List.replicate n 0x00#8 : Bytes).length ∧ (List.replicate n 0x00#8 : Bytes).length ≤ 31) ∧
      ∀ n ∈ [0, 32], (List.replicate n 0x00#8 : Bytes).length = 0 ∨ 31 < (List.replicate n 0x00#8 : Bytes).length := by
  decide

theorem witness_StreamReplyIsCaptured :
    base.far.device = .echo ∧
      ({ base.far with device := .script [0x01#8, 0x02#8] } : FarEnd).device = .script [0x01#8, 0x02#8] ∧
      ([0xA0#8, 0x00#8] : Bytes).length ≤ ([0x01#8, 0x02#8] : Bytes).length := ⟨rfl, rfl, by decide⟩

theorem witness_FramesAreTheirSubCommands : base.rst = false ∧ base.far.dirs.getLsbD 0 = true := by decide

theorem witness_UioOutDrivesLines :
    base.far.dirs.getLsbD 0 = true ∧ ({ base.far with dirs := 0x3E#6 } : FarEnd).dirs.getLsbD 0 = false := by decide

theorem witness_UioDirSetsDirections :
    (0x01#6 : BitVec 6).getLsbD 0 = true ∧ (0x3E#6 : BitVec 6).getLsbD 0 = false ∧
      ({ base.far with dirs := 0x00#6 } : FarEnd).dirs.getLsbD 0 = false := by decide

theorem witness_UioEndClosesStream :
    (waiting [] true).far.rx = [] ∧ (waiting [0x20#8] true).far.rx = [0x20#8] := ⟨rfl, rfl⟩

theorem witness_SetSpeedSetsSpeedInForce :
    ({ base.far with speed := .set 3#2 true } : FarEnd).speed = .set 3#2 true := rfl

theorem witness_ResetGivesResetValues :
    ({ inRx with rst := true } : State).rst = true ∧ ({ base with rst := true } : State).st.fsm = .idle ∧
      ({ busy .resp with rst := true } : State).st.fsm = .resp ∧
      ({ waiting [0x20#8] true with rst := true } : State).far.rx ≠ [] := by decide

theorem witness_BlockInvariantIsKept : inRx.st.Inv ∧ ∃ t, step inRx = .next t := by
  obtain ⟨t, h, _⟩ := next_of (p := fun _ => true) (o := step inRx) (by decide)
  exact ⟨busy_inv .rx (by decide), t, h⟩

theorem witness_QuietMachineNeverStops :
    inRx.st.Inv ∧ inRx.Quiet ∧ ({ inRx with req := [⟨0x10#8, .oneByte 0x05#8⟩] } : State).RequestsValid := by
  refine ⟨busy_inv .rx (by decide), ⟨rfl, fun _ => rfl⟩, fun r hr => ?_⟩
  simp only [List.mem_cons, List.not_mem_nil, or_false] at hr
  exact ⟨.rev 0x05#8, hr ▸ rfl⟩

theorem witness_FsmFollowsTheTable :
    ∀ q ∈ [Fsm.csOn, .tx, .csOff, .spd, .resp], (busy q).rst = false ∧ ∃ t, step (busy q) = .next t ∧ t.st.fsm ≠ q := by
  intro q hq
  have hs : nextHas (fun t => t.st.fsm ≠ q) (step (busy q)) = true := by revert q; decide
  obtain ⟨t, h1, h2⟩ := next_of hs
  exact ⟨rfl, t, h1, of_decide_eq_true h2⟩

theorem witness_PacketNumberAdvancesByOne : inRx.rst = false ∧ ∃ t, step inRx = .next t ∧ t.st.k = 1 := by
  obtain ⟨t, h1, h2⟩ := next_of (p := fun t => t.st.k = 1) (o := step inRx) (by decide)
  exact ⟨rfl, t, h1, of_decide_eq_true h2⟩

theorem witness_OneTransferPerStep : ∃ t, step (busy .tx) = .next t ∧ t.trace.length = 1 := by
  obtain ⟨t, h1, h2⟩ := next_of (p := fun t => t.trace.length = 1) (o := step (busy .tx)) (by decide)
  exact ⟨t, h1, of_decide_eq_true h2⟩

theorem witness_TransfersAreWellSized :
    (busy .tx).st.Inv ∧ ∃ t x, step (busy .tx) = .next t ∧ t.trace = (busy .tx).trace ++ [x] := by
  obtain ⟨t, h1, h2⟩ := next_of
    (p := fun t => t.trace = [.out [0xA8#8, 0xA0#8, 0x00#8] (.done 3)]) (o := step (busy .tx)) (by decide)
  exact ⟨busy_inv .tx (by decide), t, _, h1, of_decide_eq_true h2⟩

theorem witness_OnlyCscTouchesChipSelect :
    (busy .tx).rst = false ∧ (busy .tx).st.fsm ≠ .csOn ∧ (busy .tx).st.fsm ≠ .csOff ∧ (busy .tx).st.fsm ≠ .spd ∧
      ∃ t x, step (busy .tx) = .next t ∧ t.trace = (busy .tx).trace ++ [x] := by
  obtain ⟨-, t, x, h1, h2⟩ := witness_TransfersAreWellSized
  exact ⟨rfl, by decide, by decide, by decide, t, x, h1, h2⟩

/-- Two far ends that differ in the level, the speed, the device and the counter, and hold the same reply. -/
theorem witness_BlockReadsOnlyTheReply :
    let f : FarEnd := { inRx.far with selected := false, speed := .set 1#2 false, device := .script [] }
    inRx.far.rx = [] ∧ f.rx = [] ∧ f.reply = inRx.far.reply ∧ (∃ t, step inRx = .next t) ∧
      ∃ t', step { inRx with far := f, draws := 9 } = .next t' := by
  intro f
  obtain ⟨t, h, _⟩ := next_of (p := fun _ => true) (o := step inRx) (by decide)
  obtain ⟨t', h', _⟩ := next_of (p := fun _ => true) (o := step { inRx with far := f, draws := 9 }) (by decide)
  exact ⟨rfl, rfl, rfl, ⟨t, h⟩, t', h'⟩

/-- An exchange of 32 bytes in two packets, with a `cap` in the second, meets the hypotheses of every exchange statement. -/
theorem witness_exchanges :
    let out : Bytes := List.replicate 32 0x05#8
    (askingFor out 32#32).Presents out 32#32 ∧
      (askingFor out 32#32).Answers (packetCount out.length + 2) (packetCount out.length) ∧
      (askingFor out 32#32).far.device = .echo :=
  ⟨presents _ _ (by decide), answers _ _ _ _ (by decide) (by decide), rfl⟩

/-- The two ways an exchange is sure to end: a session that fails every transfer, or answers enough of any kind. -/
theorem witness_ExchangeAlwaysEnds :
    let s : State := { askingFor [0x05#8] 1#32 with outs := [.timedOut, .fail (Config.errCode 0), .upTo 0], ins := [.upTo 0] }
    s.Presents [0x05#8] 1#32 ∧
      (packetCount ([0x05#8] : Bytes).length + 2 ≤ s.outs.length ∧ packetCount ([0x05#8] : Bytes).length ≤ s.ins.length) ∧
      ({ s with session := some (Config.errCode 0) } : State).session.isSome = true :=
  ⟨⟨by decide, rfl, ⟨rfl, rfl⟩, rfl, rfl⟩, by decide, rfl⟩

theorem witness_EmptyExchangeRecovers : (askingFor [] 0#32).Presents [] 0#32 ∧ (askingFor [] 0#32).Answers 2 0 :=
  ⟨presents _ _ (by decide), answers _ _ _ _ (by decide) (by decide)⟩

theorem witness_ExchangeCounts :
    ∀ k, k < packetCount (List.replicate 32 0x05#8 : Bytes).length →
      ((chunk (List.replicate 32 0x05#8) k).map rev8).length = payloadCount (List.replicate 32 0x05#8) k := by
  intro k _; simp

theorem witness_FailedSpeedLeavesOldOrNew :
    ∀ a ∈ [Answer.upTo 2, .upTo 0, .fail (Config.errCode 0), .timedOut],
      (inSpd a).BlockMoves ∧ (inSpd a).st.fsm = .spd ∧ (inSpd a).answerOut = some (a, { inSpd a with outs := [] }) ∧
        outResult a 3 ≠ .done 3 := by
  intro a ha
  refine ⟨⟨rfl, rfl⟩, rfl, rfl, ?_⟩
  revert a; decide

theorem witness_FailedStreamShiftsSomePrefix :
    ∀ a ∈ [Answer.upTo 2, .upTo 0, .fail (Config.errCode 0), .timedOut],
      (answered .tx a).BlockMoves ∧ (answered .tx a).st.fsm = .tx ∧
        31 * (answered .tx a).st.k < (answered .tx a).st.obuf.length ∧
        (answered .tx a).answerOut = some (a, { answered .tx a with outs := [] }) ∧ outResult a 3 ≠ .done 3 := by
  intro a ha
  refine ⟨⟨rfl, rfl⟩, rfl, (by decide : 31 * 0 < 2), rfl, ?_⟩
  revert a; decide

/-- Z2's reset, and one in each other state that has a transfer in progress. -/
theorem witness_ResetCutsOffTransfer :
    ∀ q ∈ [Fsm.csOn, .tx, .rx, .csOff, .spd],
      let s : State := { busy q with rst := true }
      s.rst = true ∧ s.far.rx = [] ∧ s.st.fsm = q ∧ 31 * s.st.k < s.st.obuf.length :=
  fun _ _ => ⟨rfl, rfl, rfl, (by decide : 31 * 0 < 2)⟩

/-- Z2: no transfer and no response is added, and the state is as Z1. -/
theorem test_reset_mid_exchange :
    nextHas (fun t => t.st = Block.reset && t.trace = [] && t.rsps = [])
      (step { busy .rx with rst := true }) = true := by decide

/-- A step that sets the speed, from the block and from a waiting packet, and one that does not. -/
theorem witness_OnlySpeedPacketsChangeSpeed :
    nextHas (fun t => t.far.speed = .set 3#2 true) (step (inSpd (.upTo 3))) = true ∧
      nextHas (fun t => t.far.speed = .set 2#2 true) (step (waiting [0xAA#8, 0x66#8, 0x00#8] false)) = true ∧
      nextHas (fun t => t.far.speed = .bridgeDefault) (step (busy .tx)) = true := by decide

end Sys2Proof.Tests
end

section
/-! PROOFS of 00_scope.md: what one step runs (R6), and the far end's running of what the block delivers (R58, R59). -/

namespace Sys2Proof.Machine

/-! ### Fetching and running one code -/

theorem runCode_of_decode {c : Code} {i : Instr} (h : decode c = .ok i) (s : State) : runCode c s = exec i s := by
  simp only [runCode, h]

theorem fetchFar_packet {s : State} {b : Byte} {more : Bytes} (h : s.far.rx = b :: more) (hu : s.far.uioOpen = false) :
    s.fetchFar = some (.packet (b :: more), s.setFar { s.far with rx := [] }) := by
  simp [State.fetchFar, h, hu]

theorem fetchFar_subCommand {s : State} {b : Byte} {more : Bytes} (h : s.far.rx = b :: more)
    (hu : s.far.uioOpen = true) : s.fetchFar = some (.subCommand b, s.setFar { s.far with rx := more }) := by
  simp [State.fetchFar, h, hu]

/-- What waits at the far end goes before REQ and before the block's own transaction (log 22). -/
theorem step_of_fetchFar {s s1 : State} {c : Code} (hr : s.rst = false) (h : s.fetchFar = some (c, s1)) :
    step s = runCode c s1 := by
  simp [step, runStep, hr, State.fetch, h]

/-! ### What the block's transaction leaves at the far end -/

/-- A transfer boundary is a packet boundary (R90): after any OUT transfer no IO stream is open. -/
theorem OutTaken.far_uioOpen {p : Bytes} {s s1 : State} {r : OutResult} (h : OutTaken p s r s1) :
    s1.far.uioOpen = false := by
  by_cases hr : r = .done p.length
  · rw [(h.delivered hr).1]
  · rw [(h.not_delivered hr).1, afterFailed_uioOpen]

/-- The far end after the block's transaction: untouched, or as the one transfer of the block's state leaves it (R26). -/
theorem blockStep_far_cases (s : State) :
    (blockStep s).far = s.far ∨
      (∃ p r s1, s.st.outPacket = some p ∧ OutTaken p s r s1 ∧ (blockStep s).far = s1.far) ∨
      (∃ r s1, s.st.fsm = .rx ∧ InTaken (payloadCount s.st.obuf s.st.k) s r s1 ∧ (blockStep s).far = s1.far) := by
  cases hq : s.st.fsm <;> simp only [blockStep, Block.outPacket, hq]
  case idle => simp
  case csOn =>
    obtain ⟨_, e⟩ | ⟨r, s1, ho, e⟩ := csOnStep_cases s <;> rw [e]
    · exact .inl rfl
    · exact .inr (.inl ⟨_, r, s1, rfl, ho, by split <;> simp⟩)
  case tx =>
    obtain ⟨_, e⟩ | ⟨r, s1, ho, e⟩ := txStep_cases s <;> rw [e]
    · exact .inl rfl
    · exact .inr (.inl ⟨_, r, s1, rfl, ho, by split <;> simp⟩)
  case rx =>
    obtain ⟨_, e⟩ | ⟨r, s1, ht, ⟨b, _, _, e⟩ | ⟨_, e⟩⟩ := rxStep_cases s <;> rw [e]
    · exact .inl rfl
    · exact .inr (.inr ⟨r, s1, trivial, ht, by simp⟩)
    · exact .inr (.inr ⟨r, s1, trivial, ht, by simp⟩)
  case csOff =>
    obtain ⟨_, e⟩ | ⟨r, s1, ho, e⟩ := csOffStep_cases s <;> rw [e]
    · exact .inl rfl
    · exact .inr (.inl ⟨_, r, s1, rfl, ho, by split <;> simp⟩)
  case spd =>
    obtain ⟨_, e⟩ | ⟨r, s1, ho, e⟩ := spdStep_cases s <;> rw [e]
    · exact .inl rfl
    · exact .inr (.inl ⟨_, r, s1, rfl, ho, by split <;> simp⟩)
  case resp => left; unfold respStep; split <;> simp

/-- Bytes that the block's transaction has left at an empty far end are a packet, not part of an IO stream. -/
theorem blockStep_uioOpen_of_rx {s : State} (h : s.far.rx = []) (hne : (blockStep s).far.rx ≠ []) :
    (blockStep s).far.uioOpen = false := by
  obtain e | ⟨p, r, s1, -, ho, e⟩ | ⟨r, s1, -, ht, e⟩ := blockStep_far_cases s
  · exact absurd ((congrArg FarEnd.rx e).trans h) hne
  · rw [e, ho.far_uioOpen]
  · exact absurd (((congrArg FarEnd.rx e).trans ht.far_rx).trans h) hne

/-! ### The obligations -/

/-- Settles O6: the delivered bytes are a packet (`blockStep_uioOpen_of_rx`), so the far end runs them whole. -/
theorem transferRunsItsPacket : Obligations.TransferRunsItsPacket := by
  intro s p i hm hf hp hne hd
  have hu : (blockStep s).far.uioOpen = false := blockStep_uioOpen_of_rx hm.2 (hp ▸ hne)
  calc step s = runDelivered (blockStep s) := step_busy hm hf
    _ = exec i ((blockStep s).setFar { (blockStep s).far with rx := [] }) := run_of_delivered hp hne hu hd

/-- Settles O5, one clause for each place an instruction is fetched from. -/
theorem stepRunsDecodedInstruction : Obligations.StepRunsDecodedInstruction := by
  intro s i hr
  refine ⟨fun r more hx hi hq hd => ?request, fun b more hx hu hd => ?packet, fun b more hx hu hd => ?subCommand⟩
  case request => exact (step_request ⟨hr, hx⟩ hi hq).trans (runCode_of_decode hd _)
  case packet => exact (step_of_fetchFar hr (fetchFar_packet hx hu)).trans (runCode_of_decode hd _)
  case subCommand => exact (step_of_fetchFar hr (fetchFar_subCommand hx hu)).trans (runCode_of_decode hd _)

end Sys2Proof.Machine
end

section
/-! PROOFS of 10_state.md: the block's invariant (R34), the sequencer's table (R26), the packet number (R28), one transfer
a step (R21), and what the block reads of the far end (R32, R60). -/

namespace Sys2Proof.Machine

/-! ### States that differ in the far end only -/

theorem OnlyFar.refl (s : State) : OnlyFar s s := rfl

theorem OnlyFar.symm {s t : State} (h : OnlyFar s t) : OnlyFar t s := by
  unfold OnlyFar at *; rw [h]

theorem OnlyFar.trans {s t u : State} (h : OnlyFar s t) (h' : OnlyFar t u) : OnlyFar s u := by
  unfold OnlyFar at *; rw [h', h]

theorem OnlyFar.req_eq {s t : State} (h : OnlyFar s t) : t.req = s.req := by rw [h]

/-- Running what waits at the far end gives the same block and ports from states that agree on them. -/
theorem OnlyFar.runDelivered_congr {s s' t t' : State} (h : OnlyFar s s') (ht : runDelivered s = .next t)
    (ht' : runDelivered s' = .next t') : OnlyFar t t' :=
  (runDelivered_onlyFar ht).symm.trans (h.trans (runDelivered_onlyFar ht'))

/-! ### What the block's transaction can do -/

/-- The block's transactions in each sequencer state (R26), with the state each leaves before the far end runs what
was delivered: hold, hand the response back, or one transfer with its result. `hold` carries no guard: what is shown of
it needs no reason to wait. -/
inductive Transaction (s : State) : State → Prop
  | hold : Transaction s s
  | handedBack (hq : s.st.fsm = .resp) : Transaction s s.handBack
  | assertSent {s1 : State} (hq : s.st.fsm = .csOn) (ho : OutTaken (csframe true) s (.done 4) s1) :
      Transaction s ((s1.setCs .asserted).setFsm (if 0 < packetCount s.st.obuf.length then .tx else .csOff))
  | assertFailed {r : OutResult} {s1 : State} (hq : s.st.fsm = .csOn) (ho : OutTaken (csframe true) s r s1)
      (hr : r ≠ .done 4) : Transaction s ((s1.setCs .unknown).abort (errOfOut r) .csOff)
  | packetSent {s1 : State} (hq : s.st.fsm = .tx)
      (ho : OutTaken (streamPacket s.st.obuf s.st.k) s (.done (streamPacket s.st.obuf s.st.k).length) s1) :
      Transaction s (s1.setFsm .rx)
  | packetFailed {r : OutResult} {s1 : State} (hq : s.st.fsm = .tx)
      (ho : OutTaken (streamPacket s.st.obuf s.st.k) s r s1)
      (hr : r ≠ .done (streamPacket s.st.obuf s.st.k).length) : Transaction s (s1.abort (errOfOut r) .csOff)
  | replyTaken {b : Bytes} {s1 : State} (hq : s.st.fsm = .rx)
      (ht : InTaken (payloadCount s.st.obuf s.st.k) s (.data b) s1) (hb : b.length = payloadCount s.st.obuf s.st.k) :
      Transaction s ((s1.takeReply b).setFsm (if s.st.k + 1 < packetCount s.st.obuf.length then .tx else .csOff))
  | replyFailed {r : InResult} {s1 : State} (hq : s.st.fsm = .rx)
      (ht : InTaken (payloadCount s.st.obuf s.st.k) s r s1)
      (hr : ∀ b, r = .data b → b.length < payloadCount s.st.obuf s.st.k) :
      Transaction s (s1.abort (errOfIn r) .csOff)
  | deassertSent {s1 : State} (hq : s.st.fsm = .csOff) (ho : OutTaken (csframe false) s (.done 3) s1) :
      Transaction s ((s1.setCs .deasserted).respond (exchangeResponse s.st.err s.st.acc))
  | deassertFailed {r : OutResult} {s1 : State} (hq : s.st.fsm = .csOff) (ho : OutTaken (csframe false) s r s1)
      (hr : r ≠ .done 3) :
      Transaction s (((s1.setCs .unknown).raise (errOfOut r)).respond
        (exchangeResponse (firstError s.st.err (errOfOut r)) s.st.acc))
  | speedSent {s1 : State} (hq : s.st.fsm = .spd)
      (ho : OutTaken (speedPacket s.st.preq.1 s.st.preq.2) s (.done 3) s1) :
      Transaction s ((s1.setSpd (some s.st.preq)).respond (.okBytes []))
  | speedFailed {r : OutResult} {s1 : State} (hq : s.st.fsm = .spd)
      (ho : OutTaken (speedPacket s.st.preq.1 s.st.preq.2) s r s1) (hr : r ≠ .done 3) :
      Transaction s (((s1.setSpd none).raise (errOfOut r)).respond
        (exchangeResponse (firstError s.st.err (errOfOut r)) []))

theorem blockStep_transaction (s : State) : Transaction s (blockStep s) := by
  cases hq : s.st.fsm <;> simp only [blockStep, hq]
  case idle => exact .hold
  case csOn =>
    obtain ⟨_, e⟩ | ⟨r, s1, ho, e⟩ := csOnStep_cases s <;> rw [e]
    · exact .hold
    · split
      · subst r; exact .assertSent hq ho
      · exact .assertFailed hq ho ‹_›
  case tx =>
    obtain ⟨_, e⟩ | ⟨r, s1, ho, e⟩ := txStep_cases s <;> rw [e]
    · exact .hold
    · split
      · subst r; exact .packetSent hq ho
      · exact .packetFailed hq ho ‹_›
  case rx =>
    obtain ⟨_, e⟩ | ⟨r, s1, ht, ⟨b, rfl, hb, e⟩ | ⟨hr, e⟩⟩ := rxStep_cases s <;> rw [e]
    · exact .hold
    · exact .replyTaken hq ht hb
    · exact .replyFailed hq ht hr
  case csOff =>
    obtain ⟨_, e⟩ | ⟨r, s1, ho, e⟩ := csOffStep_cases s <;> rw [e]
    · exact .hold
    · split
      · subst r; exact .deassertSent hq ho
      · exact .deassertFailed hq ho ‹_›
  case spd =>
    obtain ⟨_, e⟩ | ⟨r, s1, ho, e⟩ := spdStep_cases s <;> rw [e]
    · exact .hold
    · split
      · subst r; exact .speedSent hq ho
      · exact .speedFailed hq ho ‹_›
  case resp =>
    unfold respStep
    split
    · exact .handedBack hq
    · exact .hold

/-- The block's transaction moves the sequencer along the table of R26, or not at all. -/
theorem Transaction.fsm_cases {s t : State} (h : Transaction s t) :
    t.st.fsm = s.st.fsm ∨ s.st.fsm.leavesTo t.st.fsm = true := by
  cases h with
  | hold => exact .inl rfl
  | assertSent hq _ => right; rw [hq, setFsm_fsm]; split <;> rfl
  | replyTaken hq _ _ => right; rw [hq, setFsm_fsm]; split <;> rfl
  | _ hq => right; rw [hq]; rfl

/-- The packet number stays, or advances by one on the full reply just read (R28, R164). -/
theorem Transaction.k_cases {s t : State} (h : Transaction s t) :
    t.st.k = s.st.k ∨
      (s.st.fsm = .rx ∧ t.st.k = s.st.k + 1 ∧
        ∃ b, t.trace = s.trace ++ [.inp (payloadCount s.st.obuf s.st.k) (.data b)] ∧
          b.length = payloadCount s.st.obuf s.st.k) := by
  cases h with
  | hold => exact .inl rfl
  | handedBack _ => exact .inl rfl
  | replyTaken hq ht hb => exact .inr ⟨hq, by simp [ht.st_eq], _, ht.trace_eq, hb⟩
  | replyFailed _ ht _ => left; simp [ht.st_eq]
  | _ _ ho => left; simp [ho.st_eq]

/-- One transfer at most (R21): OUT in CS_ON, TX, CS_OFF and SPD, IN in RX. -/
theorem Transaction.trace_cases {s t : State} (h : Transaction s t) :
    t.trace = s.trace ∨
      ∃ x, t.trace = s.trace ++ [x] ∧
        (((∃ p r, x = .out p r) ∧
            (s.st.fsm = .csOn ∨ s.st.fsm = .tx ∨ s.st.fsm = .csOff ∨ s.st.fsm = .spd)) ∨
          ((∃ n r, x = .inp n r) ∧ s.st.fsm = .rx)) := by
  cases h with
  | hold => exact .inl rfl
  | handedBack _ => exact .inl rfl
  | replyTaken hq ht _ => exact .inr ⟨_, ht.trace_eq, .inr ⟨⟨_, _, rfl⟩, hq⟩⟩
  | replyFailed hq ht _ => exact .inr ⟨_, ht.trace_eq, .inr ⟨⟨_, _, rfl⟩, hq⟩⟩
  | _ hq ho => exact .inr ⟨_, ho.trace_eq, .inl ⟨⟨_, _, rfl⟩, by simp [hq]⟩⟩

/-! ### What a step can do to the block -/

/-- The states that taking the first request presented can leave: an XCHG or a SPEED loaded, or an answer in RESP (R111,
R120, R122, R160, R200). -/
inductive Accepted (s : State) : State → Prop
  | exchange {r : ReqRecord} {more : List ReqRecord} {out : Bytes} {cap : BitVec 32} (hr : s.req = r :: more)
      (hl : out.length ≤ Config.lenMax) : Accepted s (((s.setReq more).loadExchange out cap).setFsm .csOn)
  | speed {r : ReqRecord} {more : List ReqRecord} {mode : BitVec 2} {dbl : Bool} (hr : s.req = r :: more) :
      Accepted s (((s.setReq more).loadSpeed mode dbl).setFsm .spd)
  | answered {r : ReqRecord} {more : List ReqRecord} {rsp : Response} (hr : s.req = r :: more) :
      Accepted s ((s.setReq more).respond rsp)

theorem accepted_of_exec {s t : State} {r : ReqRecord} {more : List ReqRecord} {i : Instr} (hf : s.st.fsm = .idle)
    (hr : s.req = r :: more) (hd : decode (.request r) = .ok i) (he : exec i (s.setReq more) = .next t) :
    Accepted s t := by
  obtain ⟨out, cap, hl, rfl⟩ | ⟨mode, dbl, rfl⟩ | ⟨rsp, rfl⟩ := request_st (s := s.setReq more) hd hf he
  · exact .exchange hr hl
  · exact .speed hr
  · exact .answered hr

/-- A step as the block sees it: a reset, a run of the far end, an accepted request, or a transaction of the block after
which the far end may run. -/
theorem step_block_cases {s t : State} (h : step s = .next t) :
    (s.rst = true ∧ t = s.assertReset) ∨ OnlyFar s t ∨ (s.st.fsm = .idle ∧ Accepted s t) ∨
      (s.BlockMoves ∧ ∃ u, Transaction s u ∧ OnlyFar u t) := by
  obtain hreset | ⟨_, _, ho⟩ | ⟨_, hi, r, more, i, hr, hd, he⟩ | ⟨_, _, _, rfl⟩ | ⟨hm, _, hb⟩ := step_cases h
  · exact .inl hreset
  · exact .inr (.inl ho)
  · exact .inr (.inr (.inl ⟨hi, accepted_of_exec hi hr hd he⟩))
  · exact .inr (.inl (OnlyFar.refl t))
  · exact .inr (.inr (.inr ⟨hm, _, blockStep_transaction s, runDelivered_onlyFar hb⟩))

/-! ### The block's invariant -/

theorem reset_inv : Block.reset.Inv := by
  constructor <;> simp [Block.reset]

/-- The bounds of the invariant speak of the exchange's own fields only; what is left is what TX and RX ask for. -/
theorem Block.Inv.of_same_exchange {b b' : Block} (h : b.Inv)
    (hsame : b'.obuf = b.obuf ∧ b'.cap = b.cap ∧ b'.k = b.k ∧ b'.acc = b.acc)
    (hx : b'.fsm = .tx ∨ b'.fsm = .rx → b'.k < b'.packets ∧ b'.cs = .asserted ∧ b'.err = none)
    (hq : b'.fsm ≠ .csOn ∧ b'.fsm ≠ .spd) : b'.Inv := by
  obtain ⟨hobuf, hcap, hk, hacc⟩ := hsame
  constructor
  case obuf_bounded => exact hobuf ▸ h.obuf_bounded
  case k_le => simpa only [Block.packets, hk, hobuf] using h.k_le
  case k_lt => exact fun q => (hx q).1
  case acc_le_cap => simpa only [hacc, hcap, hk] using h.acc_le_cap
  case acc_le_obuf => simpa only [hacc, hobuf] using h.acc_le_obuf
  case selected => exact fun q => (hx q).2
  case fresh => exact fun q => absurd q hq.1
  case speeding => exact fun q => absurd q hq.2

theorem Accepted.inv {s t : State} (h : Accepted s t) (hi : s.st.Inv) : t.st.Inv := by
  cases h with
  | exchange _ hl => constructor <;> simp [hl]
  | speed _ =>
    obtain ⟨hobuf, hk, _, hcap, hacc, _, _, _⟩ := hi
    exact ⟨hobuf, hk, by simp, hcap, hacc, by simp, by simp, by simp⟩
  | answered _ => exact hi.of_same_exchange ⟨rfl, rfl, rfl, rfl⟩ (by simp) (by simp)

/-- TX follows the assert frame only when there is a packet to send, and CS_ON has left `k` at 0 and no error. -/
theorem assertSent_inv {s s1 : State} (hi : s.st.Inv) (hq : s.st.fsm = .csOn) (hst : s1.st = s.st) :
    ((s1.setCs .asserted).setFsm (if 0 < packetCount s.st.obuf.length then .tx else .csOff)).st.Inv := by
  obtain ⟨hk, _, herr⟩ := hi.fresh hq
  refine hi.of_same_exchange (by simp [hst]) ?_ ?_ <;> split <;> simp [Block.packets, *]

/-- A reply of `n_k` bytes, at most 31, taken with room up to `keep`, keeps both bounds on `acc` (R165). -/
theorem takeReply_acc_bounds {s : State} {b : Bytes} (hi : s.st.Inv) (hb : b.length = payloadCount s.st.obuf s.st.k) :
    (s.takeReply b).st.acc.length ≤ min s.st.cap.toNat (Config.payMax * (s.st.k + 1)) ∧
      (s.takeReply b).st.acc.length ≤ s.st.obuf.length := by
  have hpay : b.length ≤ Config.payMax := by rw [hb, payloadCount_eq]; exact chunk_length_le _ _
  have hcap := hi.acc_le_cap
  have hobuf := hi.acc_le_obuf
  rw [takeReply_acc, accumulate_length, keepCount, Nat.mul_succ]
  omega

theorem replyTaken_inv {s s1 : State} {b : Bytes} (hi : s.st.Inv) (hq : s.st.fsm = .rx) (hst : s1.st = s.st)
    (hb : b.length = payloadCount s.st.obuf s.st.k) :
    ((s1.takeReply b).setFsm (if s.st.k + 1 < packetCount s.st.obuf.length then .tx else .csOff)).st.Inv := by
  have hlt : s.st.k < packetCount s.st.obuf.length := hi.k_lt (.inr hq)
  have hsel := hi.selected (.inr hq)
  rw [← hst] at hi hb hlt hsel ⊢
  clear hst
  obtain ⟨hcap, hacc⟩ := takeReply_acc_bounds hi hb
  refine ⟨hi.obuf_bounded, hlt, ?_, hcap, hacc, fun _ => hsel, ?_, ?_⟩ <;> split <;> simp [Block.packets, *]

theorem Transaction.inv {s t : State} (h : Transaction s t) (hi : s.st.Inv) : t.st.Inv := by
  cases h with
  | hold => exact hi
  | handedBack _ => exact hi.of_same_exchange ⟨rfl, rfl, rfl, rfl⟩ (by simp) (by simp)
  | assertSent hq ho => exact assertSent_inv hi hq ho.st_eq
  | packetSent hq ho =>
    have htx : s.st.k < s.st.packets ∧ s.st.cs = .asserted ∧ s.st.err = none :=
      ⟨hi.k_lt (.inl hq), hi.selected (.inl hq)⟩
    exact hi.of_same_exchange (by simp [ho.st_eq]) (fun _ => by simpa [Block.packets, ho.st_eq] using htx) (by simp)
  | replyTaken hq ht hb => exact replyTaken_inv hi hq ht.st_eq hb
  | replyFailed _ ht _ => exact hi.of_same_exchange (by simp [ht.st_eq]) (by simp) (by simp)
  | _ _ ho => exact hi.of_same_exchange (by simp [ho.st_eq]) (by simp) (by simp)

/-! ### A quiet machine -/

/-- A packet delivered to an empty far end is run, and leaves it quiet; for a stream packet it holds the reply that RX
will ask for (R58). -/
theorem delivered_quiet {u : State} {f : FarEnd} {p : Bytes} {i : Instr}
    (hfar : u.far = { f with rx := p, uioOpen := false }) (hd : decode (.packet p) = .ok i)
    (hrx : u.st.fsm = .rx → ∃ ws, i = .spiStream ws ∧ ws.length = payloadCount u.st.obuf u.st.k) :
    ∃ t, runDelivered u = .next t ∧ t.Quiet := by
  have hne : p ≠ [] := by rintro rfl; cases hd
  obtain ⟨t, ht, hempty, hst, -, hreply⟩ := deliver_ok (s' := u) (by rw [hfar]) hne (by rw [hfar]) hd
  refine ⟨t, ht, hempty, fun hq => ?_⟩
  rw [hst] at hq ⊢
  obtain ⟨ws, rfl, hlen⟩ := hrx hq
  rw [hreply ws rfl, hlen]

theorem undelivered_quiet {u : State} (hx : u.far.rx = []) (hq : u.st.fsm ≠ .rx) :
    ∃ t, runDelivered u = .next t ∧ t.Quiet :=
  ⟨u, runDelivered_empty hx, hx, fun h => absurd h hq⟩

/-- After an OUT transfer that was not full nothing waits at the far end. -/
theorem OutTaken.far_rx_of_not_done {p : Bytes} {s s1 : State} {r : OutResult} (h : OutTaken p s r s1)
    (hr : r ≠ .done p.length) : s1.far.rx = s.far.rx := by
  rw [(h.not_delivered hr).1, afterFailed_rx]

/-- What the block sends, the far end can run, so a quiet machine's transaction always completes and stays quiet. -/
theorem Transaction.quiet {s u : State} (h : Transaction s u) (hi : s.st.Inv) (hs : s.Quiet) :
    ∃ t, runDelivered u = .next t ∧ t.Quiet := by
  have hx := hs.rx_empty
  cases h with
  | hold => exact ⟨s, runDelivered_empty hx, hs⟩
  | handedBack _ => exact undelivered_quiet hx (by simp)
  | assertSent _ ho => exact delivered_quiet (ho.delivered rfl).1 decode_assert (by simp; split <;> simp)
  | packetSent hq ho =>
    exact delivered_quiet (ho.delivered rfl).1 (decode_streamPacket (hi.k_lt (.inl hq)))
      (fun _ => ⟨_, rfl, by simp [ho.st_eq]⟩)
  | deassertSent _ ho => exact delivered_quiet (ho.delivered rfl).1 decode_deassert (by simp)
  | speedSent _ ho => exact delivered_quiet (ho.delivered rfl).1 (decode_speedPacket _ _) (by simp)
  | replyTaken _ ht _ => exact undelivered_quiet (ht.far_rx.trans hx) (by simp; split <;> simp)
  | replyFailed _ ht _ => exact undelivered_quiet (ht.far_rx.trans hx) (by simp)
  | _ _ ho hr => exact undelivered_quiet ((ho.far_rx_of_not_done hr).trans hx) (by simp)

theorem Accepted.quiet {s t : State} (h : Accepted s t) (hs : s.Quiet) : t.Quiet := by
  cases h <;> exact ⟨hs.rx_empty, by simp⟩

theorem Accepted.requestsValid {s t : State} (h : Accepted s t) (hv : s.RequestsValid) : t.RequestsValid := by
  have hreq : ∃ r, s.req = r :: t.req := by cases h <;> exact ⟨_, ‹_›⟩
  obtain ⟨r, hr⟩ := hreq
  exact fun x hx => hv x (hr ▸ List.mem_cons_of_mem r hx)

theorem assertReset_quiet {s : State} (hs : s.Quiet) : s.assertReset.Quiet :=
  ⟨(farAfterReset_rx s).trans hs.rx_empty, by simp [Block.reset]⟩

/-- Accepting a request never stops (R22). -/
theorem exec_request_next {r : ReqRecord} {i : Instr} (hd : decode (.request r) = .ok i) {s : State}
    (hf : s.st.fsm = .idle) : ∃ t, exec i s = .next t := by
  obtain ⟨out, cap, rfl, _⟩ | ⟨mode, dbl, rfl⟩ | ⟨b, rfl⟩ | ⟨sel, rfl⟩ | ⟨payload, rfl⟩ := decode_request_cases hd <;>
    exact ⟨_, acceptInIdle_idle hf⟩

/-- A step of a quiet machine: the reset, the acceptance of the first request, or the block's transaction. -/
theorem step_quiet {s : State} (hi : s.st.Inv) (hs : s.Quiet) (hv : s.RequestsValid) :
    ∃ t, step s = .next t ∧ t.Quiet ∧ t.RequestsValid := by
  cases hr : s.rst with
  | true => exact ⟨_, step_reset hr, assertReset_quiet hs, hv⟩
  | false =>
    have hm : s.BlockMoves := ⟨hr, hs.rx_empty⟩
    have block (hb : s.st.fsm = .idle → s.req = []) : ∃ t, step s = .next t ∧ t.Quiet ∧ t.RequestsValid := by
      obtain ⟨t, ht, hq⟩ := (blockStep_transaction s).quiet hi hs
      have hreq : t.req = s.req := (runDelivered_onlyFar ht).req_eq.trans (blockStep_req s)
      exact ⟨t, (step_block hm hb).trans ht, hq, by rwa [State.RequestsValid, hreq]⟩
    by_cases hf : s.st.fsm = .idle
    · cases hq : s.req with
      | nil => exact block fun _ => hq
      | cons r more =>
        obtain ⟨i, hd⟩ := hv r (by simp [hq])
        obtain ⟨t, ht⟩ := exec_request_next hd (s := s.setReq more) hf
        have ha := accepted_of_exec hf hq hd ht
        exact ⟨t, ((step_request hm hf hq).trans (runCode_of_decode hd _)).trans ht, ha.quiet hs, ha.requestsValid hv⟩
    · exact block fun h => absurd h hf

/-! ### What the block reads of the far end -/

/-- `s` with another far end and counter of free values. -/
def State.withFar (s : State) (f : FarEnd) (d : Nat) : State := { s with far := f, draws := d }

theorem OnlyFar.exists_withFar {s s' : State} (h : OnlyFar s s') : ∃ f d, s' = s.withFar f d := ⟨_, _, h⟩

theorem onlyFar_withFar (s : State) (f : FarEnd) (d : Nat) : OnlyFar s (s.withFar f d) := rfl

/-- The transport's answers do not depend on the far end. -/
theorem answerOut_withFar (s : State) (f : FarEnd) (d : Nat) :
    (s.withFar f d).answerOut = s.answerOut.map fun x => (x.1, x.2.withFar f d) := by
  obtain ⟨st, far, req, ready, rsps, outs, ins, session, rst, trace, draws⟩ := s
  cases session with
  | some c => rfl
  | none => cases outs <;> rfl

theorem answerIn_withFar (s : State) (f : FarEnd) (d : Nat) :
    (s.withFar f d).answerIn = s.answerIn.map fun x => (x.1, x.2.withFar f d) := by
  obtain ⟨st, far, req, ready, rsps, outs, ins, session, rst, trace, draws⟩ := s
  cases session with
  | some c => rfl
  | none => cases ins <;> rfl

theorem answerIn_far {s s1 : State} {a : Answer} (h : s.answerIn = some (a, s1)) : s1.far = s.far := by
  obtain ⟨c, _, _, rfl⟩ | ⟨_, more, _, rfl⟩ := answerIn_some h <;> rfl

/-- The same outcome of a transfer, in states that differ in the far end only: none yet, or one and the same result. -/
def SameOutcome {ρ : Type} (x x' : Option (ρ × State)) : Prop :=
  (x = none ∧ x' = none) ∨ ∃ r s1 f d, x = some (r, s1) ∧ x' = some (r, s1.withFar f d)

/-- An OUT transfer's result does not depend on the far end (R32). -/
theorem OnlyFar.xferOut_same {s s' : State} (h : OnlyFar s s') (p : Bytes) :
    SameOutcome (s.xferOut p) (s'.xferOut p) := by
  obtain ⟨f, d, rfl⟩ := h.exists_withFar
  unfold State.xferOut
  rw [answerOut_withFar]
  cases s.answerOut with
  | none => exact .inl ⟨rfl, rfl⟩
  | some x =>
    simp only [Option.map_some]
    split <;> exact .inr ⟨_, _, _, _, rfl, rfl⟩

/-- An IN transfer reads the reply held, and nothing else of the far end (R60). -/
theorem OnlyFar.xferIn_same {s s' : State} (h : OnlyFar s s') (hr : s'.far.reply = s.far.reply) (n : Nat) :
    SameOutcome (s.xferIn n) (s'.xferIn n) := by
  obtain ⟨f, d, rfl⟩ := h.exists_withFar
  unfold State.xferIn
  rw [answerIn_withFar]
  cases ha : s.answerIn with
  | none => exact .inl ⟨rfl, rfl⟩
  | some x =>
    obtain ⟨a, s0⟩ := x
    have hreply : (s0.withFar f d).far.reply = s0.far.reply := by rw [answerIn_far ha]; exact hr
    simp only [Option.map_some, hreply]
    split <;> exact .inr ⟨_, _, _, _, rfl, rfl⟩

/-- The block's transaction with another far end that holds the same reply: the same but for the far end. -/
theorem OnlyFar.blockStep_congr {s s' : State} (h : OnlyFar s s') (hr : s'.far.reply = s.far.reply) :
    OnlyFar (blockStep s) (blockStep s') := by
  have hst : s'.st = s.st := h.st_eq
  unfold blockStep
  rw [hst]
  cases s.st.fsm with
  | idle => exact h
  | csOn =>
    unfold csOnStep
    obtain ⟨e, e'⟩ | ⟨r, s1, f, d, e, e'⟩ := h.xferOut_same (csframe true) <;> simp only [e, e', hst]
    · exact h
    · split <;> rfl
  | tx =>
    unfold txStep
    obtain ⟨e, e'⟩ | ⟨r, s1, f, d, e, e'⟩ := h.xferOut_same (streamPacket s.st.obuf s.st.k) <;> simp only [e, e', hst]
    · exact h
    · split <;> rfl
  | rx =>
    unfold rxStep
    obtain ⟨e, e'⟩ | ⟨r, s1, f, d, e, e'⟩ := h.xferIn_same hr (payloadCount s.st.obuf s.st.k) <;> simp only [e, e', hst]
    · exact h
    · cases r with
      | data b => dsimp only; split <;> rfl
      | fail c => rfl
      | timedOut => rfl
  | csOff =>
    unfold csOffStep
    obtain ⟨e, e'⟩ | ⟨r, s1, f, d, e, e'⟩ := h.xferOut_same (csframe false) <;> simp only [e, e']
    · exact h
    · split <;> rfl
  | spd =>
    unfold spdStep
    obtain ⟨e, e'⟩ | ⟨r, s1, f, d, e, e'⟩ := h.xferOut_same (speedPacket s.st.preq.1 s.st.preq.2) <;>
      simp only [e, e', hst]
    · exact h
    · split <;> rfl
  | resp =>
    obtain ⟨f, d, rfl⟩ := h.exists_withFar
    show OnlyFar (respStep s) (respStep (s.withFar f d))
    unfold respStep
    split
    · rw [if_pos ‹_›]; rfl
    · rw [if_neg ‹_›]; rfl

/-- What a request does is done to the block, whatever the far end is. -/
theorem OnlyFar.exec_request_congr {s s' t t' : State} {r : ReqRecord} {i : Instr} (h : OnlyFar s s')
    (hf : s.st.fsm = .idle) (hd : decode (.request r) = .ok i) (ht : exec i s = .next t) (ht' : exec i s' = .next t') :
    OnlyFar t t' := by
  obtain ⟨f, d, rfl⟩ := h.exists_withFar
  have hf' : (s.withFar f d).st.fsm = .idle := hf
  obtain ⟨out, cap, rfl, _⟩ | ⟨mode, dbl, rfl⟩ | ⟨b, rfl⟩ | ⟨sel, rfl⟩ | ⟨payload, rfl⟩ := decode_request_cases hd
  all_goals
    cases (acceptInIdle_idle hf).symm.trans ht
    cases (acceptInIdle_idle hf').symm.trans ht'
    rfl

/-- Two steps with nothing waiting at the far ends, which hold the same reply: the same but for the far ends. -/
theorem OnlyFar.step_congr {s s' t t' : State} (h : OnlyFar s s') (hx : s.far.rx = []) (hx' : s'.far.rx = [])
    (hr : s'.far.reply = s.far.reply) (ht : step s = .next t) (ht' : step s' = .next t') : OnlyFar t t' := by
  have hrst : s'.rst = s.rst := by rw [h]
  have hst : s'.st = s.st := h.st_eq
  have hreq : s'.req = s.req := h.req_eq
  cases hc : s.rst with
  | true =>
    rw [step_reset hc] at ht
    rw [step_reset (hrst.trans hc)] at ht'
    cases ht; cases ht'
    obtain ⟨f, d, rfl⟩ := h.exists_withFar
    rfl
  | false =>
    have hm : s.BlockMoves := ⟨hc, hx⟩
    have hm' : s'.BlockMoves := ⟨hrst.trans hc, hx'⟩
    have block (hb : s.st.fsm = .idle → s.req = []) : OnlyFar t t' := by
      rw [step_block hm hb] at ht
      rw [step_block hm' (by rwa [hst, hreq])] at ht'
      exact (h.blockStep_congr hr).runDelivered_congr ht ht'
    by_cases hf : s.st.fsm = .idle
    · cases hq : s.req with
      | nil => exact block fun _ => hq
      | cons r more =>
        rw [step_request hm hf hq] at ht
        rw [step_request hm' (by rwa [hst]) (hreq.trans hq)] at ht'
        cases hd : decode (.request r) with
        | error why => simp [runCode, hd] at ht
        | ok i =>
          rw [runCode_of_decode hd] at ht ht'
          have hset : OnlyFar (s.setReq more) (s'.setReq more) := by rw [h]; rfl
          exact hset.exec_request_congr hf hd ht ht'
    · exact block fun hi => absurd hi hf

/-! ### The obligations -/

/-- Settles O41, one case for each form of a step. -/
theorem blockInvariantIsKept : Obligations.BlockInvariantIsKept := by
  intro s t hi h
  obtain ⟨_, rfl⟩ | ho | ⟨_, ha⟩ | ⟨_, u, hu, ho⟩ := step_block_cases h
  · exact reset_inv
  · exact ho.st_eq ▸ hi
  · exact ha.inv hi
  · exact ho.st_eq ▸ hu.inv hi

/-- Settles O42: the step exists and stays quiet by `step_quiet`, and keeps the invariant by O41. -/
theorem quietMachineNeverStops : Obligations.QuietMachineNeverStops := by
  intro s hi hs hv
  obtain ⟨t, ht, hq, hv'⟩ := step_quiet hi hs hv
  exact ⟨t, ht, blockInvariantIsKept s t hi ht, hq, hv'⟩

/-- Settles O43: an accepted request leaves IDLE, and the block's transaction follows the table. -/
theorem fsmFollowsTheTable : Obligations.FsmFollowsTheTable := by
  intro s t hr h
  obtain ⟨hreset, _⟩ | ho | ⟨hf, ha⟩ | ⟨_, u, hu, ho⟩ := step_block_cases h
  · simp [hr] at hreset
  · exact .inl (by rw [ho.st_eq])
  · right; rw [hf]; cases ha <;> rfl
  · rw [ho.st_eq]; exact hu.fsm_cases

/-- Settles O44: only an accepted XCHG or the block's own transaction can write `k`. -/
theorem packetNumberAdvancesByOne : Obligations.PacketNumberAdvancesByOne := by
  intro s t hr h
  obtain ⟨hreset, _⟩ | ho | ⟨hf, ha⟩ | ⟨_, u, hu, ho⟩ := step_block_cases h
  · simp [hr] at hreset
  · exact .inl (by rw [ho.st_eq])
  · cases ha with
    | exchange _ _ => exact .inr (.inr ⟨hf, rfl, rfl⟩)
    | speed _ => exact .inl rfl
    | answered _ => exact .inl rfl
  · rw [ho.st_eq, ho.trace_eq]
    exact hu.k_cases.imp_right .inl

/-- Settles O45: a reset, a run of the far end and an accepted request issue nothing. -/
theorem oneTransferPerStep : Obligations.OneTransferPerStep := by
  intro s t h
  obtain ⟨_, rfl⟩ | ho | ⟨_, ha⟩ | ⟨hm, u, hu, ho⟩ := step_block_cases h
  · exact .inl rfl
  · exact .inl ho.trace_eq
  · left; cases ha <;> rfl
  · rw [ho.trace_eq]
    exact hu.trace_cases.imp_right fun hx => ⟨hm, hx⟩

/-- Settles O48: the two steps differ in the far end and the counter only (`OnlyFar.step_congr`). -/
theorem blockReadsOnlyTheReply : Obligations.BlockReadsOnlyTheReply := by
  intro s t t' f d hx hx' hr ht ht'
  have h : OnlyFar t t' := (onlyFar_withFar s f d).step_congr hx hx' hr ht ht'
  rw [h]
  exact ⟨rfl, rfl, rfl, rfl, rfl, rfl⟩

/-- Settles O40. -/
theorem resetSatisfiesInvariants : Obligations.ResetSatisfiesInvariants :=
  ⟨reset_inv, ⟨rfl, by simp [State.reset, Block.reset]⟩, by simp [State.RequestsValid, State.reset]⟩

end Sys2Proof.Machine
end

section
/-! PROOFS of 20_memory.md: the two transfers and what they leave at the far end (R53 to R60), the exchange on a closed
session (R57, R242), and the exchange that succeeds (R70, R167). -/

namespace Sys2Proof.Machine

/-! ### Holding -/

theorem answerOut_of_no_answer {s : State} (hs : s.session = none) (ho : s.outs = []) : s.answerOut = none := by
  simp [State.answerOut, hs, ho]

theorem answerIn_of_no_answer {s : State} (hs : s.session = none) (hi : s.ins = []) : s.answerIn = none := by
  simp [State.answerIn, hs, hi]

/-- With no answer to the transfer of its state the block's transaction leaves the state (R54). -/
theorem blockStep_of_no_answerOut {s : State} (h : s.answerOut = none) (hq : s.st.outPacket ≠ none) :
    blockStep s = s := by
  have hx (p : Bytes) : s.xferOut p = none := xferOut_none_iff.mpr h
  cases hf : s.st.fsm <;> simp only [blockStep, hf]
  case csOn => simp only [csOnStep, hx]
  case tx => simp only [txStep, hx]
  case csOff => simp only [csOffStep, hx]
  case spd => simp only [spdStep, hx]
  all_goals simp [Block.outPacket, hf] at hq

theorem blockStep_of_no_answerIn {s : State} (h : s.answerIn = none) (hq : s.st.fsm = .rx) : blockStep s = s := by
  simp only [blockStep, hq, rxStep, xferIn_none_iff.mpr h]

/-- A block's transaction that leaves the state makes a step that leaves it. -/
theorem step_hold {s : State} (hm : s.BlockMoves) (hi : s.st.fsm = .idle → s.req = []) (hb : blockStep s = s) :
    step s = .next s := by
  rw [step_block hm hi, hb, runDelivered_empty hm.2]

/-- Settles O7, one clause for each thing the block can wait for. -/
theorem blockHoldsWithoutResult : Obligations.BlockHoldsWithoutResult := by
  intro s hm
  refine ⟨fun hs ho hq => ?noOut, fun hs hi hq => ?noIn, fun hr hq => ?noTaker, fun hr hq => ?noRequest⟩
  case noOut =>
    have hsends : s.st.outPacket ≠ none ∧ s.st.fsm ≠ .idle := by
      rcases hq with hq | hq | hq | hq <;> simp [Block.outPacket, hq]
    exact step_hold hm (absurd · hsends.2) (blockStep_of_no_answerOut (answerOut_of_no_answer hs ho) hsends.1)
  case noIn => exact step_hold hm (by simp [hq]) (blockStep_of_no_answerIn (answerIn_of_no_answer hs hi) hq)
  case noTaker => exact step_hold hm (by simp [hq]) (by simp [blockStep, hq, respStep, hr])
  case noRequest => exact step_hold hm (fun _ => hr) (by simp [blockStep, hq])

/-! ### The far end's packets -/

/-- A stream packet's payload of 1 to 31 bytes is run (R81). -/
theorem execSpiStream_of_length {ws : Bytes} (h1 : 1 ≤ ws.length) (h2 : ws.length ≤ Config.payMax) (s : State) :
    execSpiStream ws s = .next ((s.setFar (s.far.stream s.draws ws)).addDraws ws.length) := by
  rw [execSpiStream, if_neg (by omega), if_neg (by omega)]

/-- Any other payload is no stream packet (R81, R92). -/
theorem execSpiStream_refused {ws : Bytes} (h : ws.length = 0 ∨ Config.payMax < ws.length) (s : State) :
    ∃ why, execSpiStream ws s = .refused (.reservedPacket why) := by
  unfold execSpiStream
  split
  · exact ⟨_, rfl⟩
  · rw [if_pos (by omega)]
    exact ⟨_, rfl⟩

/-- A stream packet touches the reply held, the select window and the device only (R58, R59). -/
theorem stream_eq (d : Nat) (ws : Bytes) (f : FarEnd) :
    f.stream d ws = { f with
      reply := (f.stream d ws).reply
      window := if f.selected then f.window ++ ws else f.window
      device := (f.stream d ws).device } := by
  rw [← stream_rx d ws f, ← stream_uioOpen d ws f, ← stream_lines d ws f, ← stream_dirs d ws f, ← stream_speed d ws f,
    ← stream_seqs d ws f, ← stream_window d ws f, ← stream_selected d ws f]

/-- While the environment's script has bytes, the bytes captured are the script's and it moves on by as many (R60). -/
theorem shiftBytes_script (d : Nat) (f : FarEnd) (ws miso : Bytes) (h : f.device = .script miso)
    (hl : ws.length ≤ miso.length) :
    (f.shiftBytes d ws).reply = f.reply ++ miso.take ws.length ∧
      (f.shiftBytes d ws).device = .script (miso.drop ws.length) := by
  induction ws generalizing d f miso with
  | nil => simp [FarEnd.shiftBytes, h]
  | cons w ws ih =>
    cases miso with
    | nil => simp at hl
    | cons r miso =>
      have := ih (d + 1) (f.shiftByte d w) miso (by simp [FarEnd.shiftByte, h, Device.afterByte]) (by simpa using hl)
      simpa [FarEnd.shiftBytes, FarEnd.shiftByte, FarEnd.captured, h] using this

theorem stream_script (d : Nat) (ws : Bytes) (f : FarEnd) {miso : Bytes} (h : f.device = .script miso)
    (hl : ws.length ≤ miso.length) :
    (f.stream d ws).reply = miso.take ws.length ∧ (f.stream d ws).device = .script (miso.drop ws.length) := by
  simpa [FarEnd.stream] using shiftBytes_script d { f with reply := [] } ws miso h hl

/-- Settles O30: the new far end is that of `stream_eq`. -/
theorem spiStreamShiftsAndHoldsReply : Obligations.SpiStreamShiftsAndHoldsReply := by
  refine ⟨fun ws s h1 h2 => ⟨_, execSpiStream_of_length h1 h2 s, stream_reply_length _ _ _, ?_⟩,
    fun ws s h => execSpiStream_refused h s⟩
  exact congrArg (fun f => { s with far := f, draws := s.draws + ws.length }) (stream_eq s.draws ws s.far)

/-- Settles O31, on the loopback and on a script that is long enough. -/
theorem streamReplyIsCaptured : Obligations.StreamReplyIsCaptured := by
  intro ws s h1 h2
  have hx : exec (.spiStream ws) s = .next ((s.setFar (s.far.stream s.draws ws)).addDraws ws.length) :=
    execSpiStream_of_length h1 h2 s
  exact ⟨fun h => ⟨_, hx, stream_echo _ _ _ h⟩, fun miso h hl => ⟨_, hx, stream_script _ _ _ h hl⟩⟩

/-- Settles O32. -/
theorem csAssertSelects : Obligations.CsAssertSelects := by
  intro s
  have hx : exec .csAssert s = .next ((s.setFar (s.far.assertSelect s.draws)).addDraws 1) := rfl
  rw [hx, assertSelect_eq, setLevel_eq]
  simp [State.setFar, State.addDraws, Config.csPatOn, Config.csDirMask]

/-- Settles O33. -/
theorem csDeassertDeselects : Obligations.CsDeassertDeselects := by
  intro s
  have hx : exec .csDeassert s = .next (s.setFar s.far.deassertSelect) := rfl
  rw [hx, deassertSelect_eq, setLevel_eq]
  cases s.far.selected <;> simp [State.setFar, Config.csPatOff]

/-! ### The sizes of transfers -/

theorem OutTaken.result_le {p : Bytes} {s s1 : State} {r : OutResult} (h : OutTaken p s r s1) {m : Nat}
    (hr : r = .done m) : m ≤ p.length := by
  obtain ⟨a, s0, -, ha, -⟩ := h.answered
  exact outResult_done_le (ha.symm.trans hr)

theorem InTaken.result_le {n : Nat} {s s1 : State} {r : InResult} (h : InTaken n s r s1) {b : Bytes}
    (hr : r = .data b) : b.length ≤ n := by
  obtain ⟨a, s0, -, ha, -⟩ := h.answered
  exact inResult_data_le (ha.symm.trans hr)

/-- The four kinds of packet that a block may send (R92): the stream packets are those of its own exchange. -/
def Block.Sends (b : Block) (p : Bytes) : Prop :=
  p = csframe true ∨ p = csframe false ∨ (∃ mode dbl, p = speedPacket mode dbl) ∨
    ∃ k, k < packetCount b.obuf.length ∧ p = streamPacket b.obuf k

theorem streamPacket_length_le (x : Bytes) (k : Nat) : (streamPacket x k).length ≤ Config.pktMax := by
  rw [streamPacket_length]
  exact Nat.succ_le_succ (chunk_length_le x k)

theorem Block.Sends.length_bounds {b : Block} {p : Bytes} (h : b.Sends p) : 1 ≤ p.length ∧ p.length ≤ Config.pktMax := by
  obtain rfl | rfl | ⟨mode, dbl, rfl⟩ | ⟨k, _, rfl⟩ := h
  · simp [Config.pktMax]
  · simp [Config.pktMax]
  · simp [Config.pktMax]
  · exact ⟨by simp, streamPacket_length_le _ _⟩

/-- Under the invariant the packet of the block's state is one of the four kinds: in TX the packet number is in range. -/
theorem Block.Inv.sends {b : Block} (h : b.Inv) {p : Bytes} (hp : b.outPacket = some p) : b.Sends p := by
  cases hq : b.fsm <;> simp only [Block.outPacket, hq] at hp <;> cases hp
  case csOn => exact .inl rfl
  case tx => exact .inr (.inr (.inr ⟨b.k, h.k_lt (.inl hq), rfl⟩))
  case csOff => exact .inr (.inl rfl)
  case spd => exact .inr (.inr (.inl ⟨_, _, rfl⟩))

/-- A transfer as the block may issue it: well sized, and an OUT transfer is of one of the four kinds. -/
def Block.Issues (b : Block) (x : Transfer) : Prop := x.WellSized ∧ ∀ p r, x = .out p r → b.Sends p

theorem OutTaken.issues {p : Bytes} {s s1 : State} {r : OutResult} (h : OutTaken p s r s1) (hi : s.st.Inv)
    (hp : s.st.outPacket = some p) : s.st.Issues (.out p r) := by
  have hs : s.st.Sends p := hi.sends hp
  obtain ⟨hpos, hle⟩ := hs.length_bounds
  exact ⟨⟨hpos, hle, fun m => h.result_le⟩, by rintro _ _ ⟨⟩; exact hs⟩

theorem InTaken.issues {s s1 : State} {r : InResult} (h : InTaken (payloadCount s.st.obuf s.st.k) s r s1)
    (hi : s.st.Inv) (hq : s.st.fsm = .rx) : s.st.Issues (.inp (payloadCount s.st.obuf s.st.k) r) := by
  have hlt : s.st.k < packetCount s.st.obuf.length := hi.k_lt (.inr hq)
  have hsize : 1 ≤ payloadCount s.st.obuf s.st.k ∧ payloadCount s.st.obuf s.st.k ≤ Config.payMax := by
    rw [payloadCount_eq]; exact ⟨chunk_length_pos hlt, chunk_length_le _ _⟩
  exact ⟨⟨hsize.1, hsize.2, fun b => h.result_le⟩, fun _ _ hx => nomatch hx⟩

/-- Under the invariant a transaction of the block issues well-sized transfers only. -/
theorem Transaction.issues {s t : State} (h : Transaction s t) (hi : s.st.Inv) :
    t.trace = s.trace ∨ ∃ x, t.trace = s.trace ++ [x] ∧ s.st.Issues x := by
  cases h with
  | hold => exact .inl rfl
  | handedBack _ => exact .inl rfl
  | replyTaken hq ht _ => exact .inr ⟨_, ht.trace_eq, ht.issues hi hq⟩
  | replyFailed hq ht _ => exact .inr ⟨_, ht.trace_eq, ht.issues hi hq⟩
  | _ hq ho => exact .inr ⟨_, ho.trace_eq, ho.issues hi (by simp only [Block.outPacket, hq])⟩

/-- Settles O46: only the block's transaction adds to the trace, and what it adds is `Transaction.issues`. -/
theorem transfersAreWellSized : Obligations.TransfersAreWellSized := by
  intro s t new hi h hnew
  have hone : t.trace = s.trace ∨ ∃ x, t.trace = s.trace ++ [x] ∧ s.st.Issues x := by
    obtain ⟨_, rfl⟩ | ho | ⟨_, ha⟩ | ⟨_, u, hu, ho⟩ := step_block_cases h
    · exact .inl rfl
    · exact .inl ho.trace_eq
    · left; cases ha <;> rfl
    · exact ho.trace_eq ▸ hu.issues hi
  intro x hx
  obtain e | ⟨y, e, hy⟩ := hone <;> rw [hnew] at e
  · obtain rfl : new = [] := by simpa using e
    exact nomatch hx
  · obtain rfl : new = [y] := List.append_cancel_left e
    obtain rfl : x = y := List.mem_singleton.mp hx
    exact hy

/-! ### A stream packet that fails -/

/-- TX with an answer that is not full: the far end is as the failed transfer leaves it (R56, R163). -/
theorem step_tx_failed {s s0 : State} {a : Answer} (hm : s.BlockMoves) (hq : s.st.fsm = .tx)
    (ha : s.answerOut = some (a, s0))
    (hr : outResult a (streamPacket s.st.obuf s.st.k).length ≠ .done (streamPacket s.st.obuf s.st.k).length) :
    ∃ t, step s = .next t ∧ t.far = s.far.afterFailed s.draws (streamPacket s.st.obuf s.st.k) := by
  obtain ⟨hnone, _⟩ | ⟨r, s1, ho, e⟩ := txStep_cases s
  · simp [ha] at hnone
  obtain ⟨a', s0', ha', rfl, -⟩ := ho.answered
  obtain ⟨rfl, rfl⟩ : a = a' ∧ s0 = s0' := by simpa [ha] using ha'
  rw [if_neg hr] at e
  have hfar := (ho.not_delivered hr).1
  have hempty : (txStep s).far.rx = [] := by rw [e, abort_far, hfar, afterFailed_rx, hm.2]
  refine ⟨txStep s, ?_, by rw [e, abort_far, hfar]⟩
  simp only [step_busy hm (by simp [hq]), blockStep, hq, runDelivered_empty hempty]

/-- Settles O56: `afterFailed_stream` gives the `m` bytes shifted, and `stream_eq` what shifting them touches. -/
theorem failedStreamShiftsSomePrefix : Obligations.FailedStreamShiftsSomePrefix := by
  intro s s0 a hm hq hk ha ws hr
  have hlt : s.st.k < packetCount s.st.obuf.length := (lt_packetCount_iff _ _).mpr hk
  have hp : streamPacket s.st.obuf s.st.k = Config.opSpiStream :: ws := rfl
  have hpos : 1 ≤ ws.length := by rw [List.length_map]; exact chunk_length_pos hlt
  have hle : ws.length ≤ Config.payMax := by simp [ws, Config.payMax]
  obtain ⟨t, hstep, hfar⟩ := step_tx_failed hm hq ha (by rwa [hp])
  obtain ⟨m, hmle, hx⟩ := afterFailed_stream (d := s.draws) (f := s.far) hpos hle
  rw [hp, hx] at hfar
  refine ⟨t, m, hstep, hmle, ?_⟩
  rw [hfar]
  split
  case isTrue h0 =>
    subst h0
    exact ⟨by simp, fun _ => ⟨_, rfl⟩, absurd rfl, rfl, rfl, rfl, rfl, rfl, hm.2⟩
  case isFalse h0 =>
    simp [hm.2, h0, hmle]

/-! ### Runs -/

theorem core_run_succ (M : Host.Core) {s t : M.State} (h : M.step s = .next t) (k : Nat) :
    M.run (k + 1) s = M.run k t := by
  simp only [Host.Core.run, h]

theorem core_run_add (M : Host.Core) {j : Nat} {s t : M.State} (h : M.run j s = .next t) (k : Nat) :
    M.run (j + k) s = M.run k t := by
  induction j generalizing s with
  | zero => cases h; rw [Nat.zero_add]
  | succ j ih =>
    cases hs : M.step s with
    | next u =>
      rw [core_run_succ M hs] at h
      rw [Nat.succ_add, core_run_succ M hs, ih h]
    | fault r => simp [Host.Core.run, hs] at h
    | refused r => simp [Host.Core.run, hs] at h

theorem runSteps_succ {s t : State} (h : step s = .next t) (k : Nat) : runSteps (k + 1) s = runSteps k t :=
  core_run_succ Sys2Proof.core h k

theorem runSteps_one {s t : State} (h : step s = .next t) : runSteps 1 s = .next t := runSteps_succ h 0

theorem runSteps_add {j : Nat} {s t : State} (h : runSteps j s = .next t) (k : Nat) :
    runSteps (j + k) s = runSteps k t :=
  core_run_add Sys2Proof.core h k

/-! ### The first and the last step of an exchange -/

/-- An XCHG presented is accepted, and is gone from REQ (R20, R160). -/
theorem State.Presents.step_eq {s : State} {out : Bytes} {cap : BitVec 32} (h : s.Presents out cap) :
    step s = .next (((s.setReq s.req.tail).loadExchange out cap).setFsm .csOn) := by
  obtain ⟨more, hreq⟩ : ∃ more, s.req = ⟨0x01#8, .exchange out cap⟩ :: more := List.head?_eq_some_iff.mp h.first
  rw [step_request h.moves h.idle hreq, runCode_of_decode (decode_request_exchange h.in_range), hreq]
  exact acceptInIdle_idle h.idle

/-- A requester that is ready takes the response (R168). -/
theorem step_resp_ready {s : State} (hm : s.BlockMoves) (hq : s.st.fsm = .resp) (hr : s.rspReady = true) :
    step s = .next s.handBack := by
  rw [step_busy hm (by simp [hq])]
  simp only [blockStep, hq, respStep, hr, if_true]
  exact runDelivered_empty hm.2

/-! ### A session that is not open -/

theorem xferOut_closed {s : State} {c : Config.ErrCode} (hs : s.session = some c) (p : Bytes) :
    s.xferOut p = some (.fail c, (s.deliverFailed p).logTransfer (.out p (.fail c))) := by
  simp [State.xferOut, State.answerOut, hs, outResult]

theorem step_csOn_closed {s : State} {c : Config.ErrCode} (hm : s.BlockMoves) (hq : s.st.fsm = .csOn)
    (hs : s.session = some c) :
    step s = .next ((((s.deliverFailed (csframe true)).logTransfer (.out (csframe true) (.fail c))).setCs
      .unknown).abort (.transportFailed c) .csOff) := by
  rw [step_busy hm (by simp [hq])]
  simp only [blockStep, hq, csOnStep, xferOut_closed hs, csAfter, reduceCtorEq, if_false]
  exact runDelivered_empty (by simp [hm.2])

theorem step_csOff_closed {s : State} {c : Config.ErrCode} (hm : s.BlockMoves) (hq : s.st.fsm = .csOff)
    (hs : s.session = some c) :
    step s = .next (((((s.deliverFailed (csframe false)).logTransfer (.out (csframe false) (.fail c))).setCs
      .unknown).raise (.transportFailed c)).respond
        (exchangeResponse (firstError s.st.err (.transportFailed c)) s.st.acc)) := by
  rw [step_busy hm (by simp [hq])]
  simp only [blockStep, hq, csOffStep, xferOut_closed hs, csAfter, reduceCtorEq, if_false]
  exact runDelivered_empty (by simp [hm.2])

/-- Settles O29: accepted, both frames failed, and the first failure handed back. -/
theorem closedSessionFailsExchange : Obligations.ClosedSessionFailsExchange := by
  intro s out cap c hp hs
  have hr := hp.ready
  obtain ⟨hrst, hrx⟩ := hp.moves
  have hrun := calc
    runSteps 4 s = runSteps 3 _ := runSteps_succ hp.step_eq 3
    _ = runSteps 2 _ := runSteps_succ (step_csOn_closed (by exact ⟨hrst, hrx⟩) rfl (by exact hs)) 2
    _ = runSteps 1 _ := runSteps_succ (step_csOff_closed (by exact ⟨hrst, hrx⟩) rfl (by exact hs)) 1
    _ = .next _ := runSteps_one (step_resp_ready (by exact ⟨hrst, hrx⟩) rfl (by exact hr))
  exact ⟨_, hrun, rfl, rfl, rfl, by simp [State.handBack]⟩

/-! ### Transfers answered in full -/

/-- The answers a transport will give in full, one by one. -/
theorem full_answers_succ {l : List Answer} {m : Nat} (hl : m + 1 ≤ l.length)
    (hf : ∀ a ∈ l.take (m + 1), a.full = true) :
    ∃ a more, l = a :: more ∧ a.full = true ∧ m ≤ more.length ∧ ∀ b ∈ more.take m, b.full = true := by
  cases l with
  | nil => simp at hl
  | cons a more =>
    simp only [List.take_succ_cons, List.forall_mem_cons] at hf
    exact ⟨a, more, rfl, hf.1, by simpa using hl, hf.2⟩

theorem State.Answers.next_out {s : State} {m k : Nat} (h : s.Answers (m + 1) k) :
    ∃ a more, s.outs = a :: more ∧ a.full = true ∧ (s.setOuts more).Answers m k := by
  obtain ⟨a, more, e, ha, hl, hf⟩ := full_answers_succ h.outs_enough h.outs_full
  exact ⟨a, more, e, ha, h.opened, hl, hf, h.ins_enough, h.ins_full⟩

theorem State.Answers.next_in {s : State} {m k : Nat} (h : s.Answers m (k + 1)) :
    ∃ a more, s.ins = a :: more ∧ a.full = true ∧ (s.setIns more).Answers m k := by
  obtain ⟨a, more, e, ha, hl, hf⟩ := full_answers_succ h.ins_enough h.ins_full
  exact ⟨a, more, e, ha, h.opened, h.outs_enough, h.outs_full, hl, hf⟩

/-- The transport's promise speaks of the session and of the two scripts only. -/
theorem State.Answers.congr {s t : State} {m k : Nat} (h : s.Answers m k) (hs : t.session = s.session)
    (ho : t.outs = s.outs) (hi : t.ins = s.ins) : t.Answers m k :=
  ⟨hs ▸ h.opened, ho ▸ h.outs_enough, ho ▸ h.outs_full, hi ▸ h.ins_enough, hi ▸ h.ins_full⟩

section Full

variable {s : State} {a : Answer} {more : List Answer}

theorem xferOut_full (hs : s.session = none) (ho : s.outs = a :: more) (ha : a.full = true) {p : Bytes}
    (hp : p.length ≤ Config.pktMax) :
    s.xferOut p =
      some (.done p.length, ((s.setOuts more).deliver p).logTransfer (.out p (.done p.length))) := by
  simp [State.xferOut, State.answerOut, hs, ho, outResult_full ha hp]

theorem xferIn_full (hs : s.session = none) (hi : s.ins = a :: more) (ha : a.full = true) {n : Nat}
    (hn : s.far.reply.length = n) (hle : n ≤ Config.pktMax) :
    s.xferIn n = some (.data s.far.reply, ((s.setIns more).useReply).logTransfer (.inp n (.data s.far.reply))) := by
  subst hn
  simp [State.xferIn, State.answerIn, hs, hi, inResult_full ha hle, InResult.isFull]

/-- CS_ON with the frame delivered: the device is selected and the block goes on (R141, R162). -/
theorem step_csOn_full (hm : s.BlockMoves) (hq : s.st.fsm = .csOn) (hs : s.session = none) (ho : s.outs = a :: more)
    (ha : a.full = true) :
    step s = .next { s with
      st := { s.st with fsm := if 0 < packetCount s.st.obuf.length then .tx else .csOff, cs := .asserted }
      far := ({ s.far with rx := [], uioOpen := false } : FarEnd).assertSelect s.draws
      outs := more
      trace := s.trace ++ [.out (csframe true) (.done 4)]
      draws := s.draws + 1 } := by
  rw [step_busy hm (by simp [hq])]
  simp only [blockStep, hq, csOnStep, xferOut_full hs ho ha (p := csframe true) (by decide), csframe_true_length,
    csAfter, if_true]
  exact run_of_delivered (p := csframe true) rfl (by decide) rfl decode_assert

/-- TX with packet `k` delivered: the far end has shifted its payload and holds the reply (R58, R163). -/
theorem step_tx_full (hm : s.BlockMoves) (hq : s.st.fsm = .tx) (hk : s.st.k < packetCount s.st.obuf.length)
    (hs : s.session = none) (ho : s.outs = a :: more) (ha : a.full = true) :
    step s = .next { s with
      st := { s.st with fsm := .rx }
      far := ({ s.far with rx := [], uioOpen := false } : FarEnd).stream s.draws ((chunk s.st.obuf s.st.k).map rev8)
      outs := more
      trace := s.trace ++ [.out (streamPacket s.st.obuf s.st.k) (.done (streamPacket s.st.obuf s.st.k).length)]
      draws := s.draws + ((chunk s.st.obuf s.st.k).map rev8).length } := by
  rw [step_busy hm (by simp [hq])]
  simp only [blockStep, hq, txStep, xferOut_full hs ho ha (streamPacket_length_le _ _), if_true]
  rw [run_of_delivered rfl (by simp [streamPacket]) rfl (decode_streamPacket hk)]
  exact execSpiStream_of_length (by simpa using chunk_length_pos hk) (by simpa using chunk_length_le _ _) _

/-- RX with the whole reply to packet `k` read (R164, R165). -/
theorem step_rx_full (hm : s.BlockMoves) (hq : s.st.fsm = .rx) (hs : s.session = none) (hi : s.ins = a :: more)
    (ha : a.full = true) (hr : s.far.reply.length = payloadCount s.st.obuf s.st.k) :
    step s = .next { s with
      st := { s.st with
        fsm := if s.st.k + 1 < packetCount s.st.obuf.length then .tx else .csOff
        acc := accumulate (keepCount s.st.cap s.st.obuf.length) s.st.acc s.far.reply
        k := s.st.k + 1 }
      far := { s.far with reply := [] }
      ins := more
      trace := s.trace ++ [.inp (payloadCount s.st.obuf s.st.k) (.data s.far.reply)] } := by
  have hle : payloadCount s.st.obuf s.st.k ≤ Config.pktMax := by
    rw [payloadCount_eq]; exact (chunk_length_le _ _).trans (by decide)
  rw [step_busy hm (by simp [hq])]
  simp only [blockStep, hq, rxStep, xferIn_full hs hi ha hr hle, hr, if_true]
  exact runDelivered_empty hm.2

/-- CS_OFF with the frame delivered: the device is deselected and the response loaded (R142, R166). -/
theorem step_csOff_full (hm : s.BlockMoves) (hq : s.st.fsm = .csOff) (hs : s.session = none)
    (ho : s.outs = a :: more) (ha : a.full = true) :
    step s = .next { s with
      st := { s.st with fsm := .resp, cs := .deasserted, rsp := exchangeResponse s.st.err s.st.acc }
      far := ({ s.far with rx := [], uioOpen := false } : FarEnd).deassertSelect
      outs := more
      trace := s.trace ++ [.out (csframe false) (.done 3)] } := by
  rw [step_busy hm (by simp [hq])]
  simp only [blockStep, hq, csOffStep, xferOut_full hs ho ha (p := csframe false) (by decide), csframe_false_length,
    csAfter, if_true]
  exact run_of_delivered (p := csframe false) rfl (by decide) rfl decode_deassert

end Full

/-! ### Rounds of two steps -/

/-- What every round of two steps carries one packet further holds after all of them. -/
theorem runSteps_rounds {P : Nat → State → Prop} {n : Nat} {s : State} (h0 : P 0 s)
    (hround : ∀ k t, k < n → P k t → ∃ u, runSteps 2 t = .next u ∧ P (k + 1) u) :
    ∃ t, runSteps (2 * n) s = .next t ∧ P n t := by
  suffices h : ∀ k, k ≤ n → ∃ t, runSteps (2 * k) s = .next t ∧ P k t from h n le_rfl
  intro k
  induction k with
  | zero => exact fun _ => ⟨s, rfl, h0⟩
  | succ k ih =>
    intro hk
    obtain ⟨t, ht, hp⟩ := ih (by omega)
    obtain ⟨u, hu, hp'⟩ := hround k t (by omega) hp
    exact ⟨u, (runSteps_add ht 2).trans hu, hp'⟩

/-- TX and RX of packet `k`, both answered in full. -/
theorem runSteps_round_full {s : State} {a b : Answer} {outs ins : List Answer} (hm : s.BlockMoves)
    (hq : s.st.fsm = .tx) (hk : s.st.k < packetCount s.st.obuf.length) (hs : s.session = none)
    (ho : s.outs = a :: outs) (ha : a.full = true) (hi : s.ins = b :: ins) (hb : b.full = true) :
    ∃ reply far draws, reply.length = payloadCount s.st.obuf s.st.k ∧ far.rx = [] ∧
      runSteps 2 s = .next { s with
        st := { s.st with
          fsm := if s.st.k + 1 < packetCount s.st.obuf.length then .tx else .csOff
          acc := accumulate (keepCount s.st.cap s.st.obuf.length) s.st.acc reply
          k := s.st.k + 1 }
        far := far
        outs := outs
        ins := ins
        trace := s.trace ++
          [.out (streamPacket s.st.obuf s.st.k) (.done (streamPacket s.st.obuf s.st.k).length)] ++
          [.inp (payloadCount s.st.obuf s.st.k) (.data reply)]
        draws := draws } := by
  have hrx := step_tx_full hm hq hk hs ho ha
  have hlen (f : FarEnd) (d : Nat) :
      (f.stream d ((chunk s.st.obuf s.st.k).map rev8)).reply.length = payloadCount s.st.obuf s.st.k := by
    rw [stream_reply_length, List.length_map, payloadCount_eq]
  refine ⟨_, _, _, hlen _ _, ?_, (runSteps_succ hrx 1).trans (runSteps_one (step_rx_full ?_ rfl hs hi hb (hlen _ _)))⟩
  · exact stream_rx _ _ _
  · exact ⟨hm.1, stream_rx _ _ _⟩

/-! ### The exchange after its first packets -/

/-- The transfers of the first `k` packets of an exchange of `out` (R70). -/
def roundTransfers (out : Bytes) (reply : Nat → Bytes) (k : Nat) : List Transfer :=
  (List.range k).flatMap fun j =>
    [.out (streamPacket out j) (.done (streamPacket out j).length), .inp (payloadCount out j) (.data (reply j))]

theorem exchangeTransfers_eq (out : Bytes) (reply : Nat → Bytes) :
    exchangeTransfers out reply =
      .out (csframe true) (.done 4) :: roundTransfers out reply (packetCount out.length) ++
        [.out (csframe false) (.done 3)] := rfl

theorem roundTransfers_succ (out : Bytes) (reply : Nat → Bytes) (k : Nat) :
    roundTransfers out reply (k + 1) = roundTransfers out reply k ++
      [.out (streamPacket out k) (.done (streamPacket out k).length), .inp (payloadCount out k) (.data (reply k))] := by
  simp [roundTransfers, List.range_succ]

/-- A reply to a later packet does not change the transfers so far. -/
theorem roundTransfers_update (out : Bytes) (reply : Nat → Bytes) (k : Nat) (b : Bytes) :
    roundTransfers out (Function.update reply k b) k = roundTransfers out reply k := by
  refine List.flatMap_congr fun j hj => ?_
  rw [Function.update_of_ne (List.mem_range.mp hj).ne]

theorem map_range_update (reply : Nat → Bytes) (k : Nat) (b : Bytes) :
    (List.range k).map (Function.update reply k b) = (List.range k).map reply :=
  List.map_congr_left fun _ hj => Function.update_of_ne (List.mem_range.mp hj).ne _ _

theorem extract_append (xs ys : List Bytes) : extract (xs ++ ys) = extract xs ++ extract ys := by
  simp [extract]

/-- Accumulating one more reply keeps the first `keep` bytes of one more reply extracted (R125, R165). -/
theorem accumulate_take_extract (keep : Nat) (replies : List Bytes) (b : Bytes) :
    accumulate keep ((extract replies).take keep) b = (extract (replies ++ [b])).take keep := by
  have hroom : keep - min keep (extract replies).length = keep - (extract replies).length := by omega
  rw [accumulate_eq, extract_append, List.take_append, List.length_take, hroom]
  simp [extract, List.map_take]

/-- `t` is what an exchange of `out` begun in `s` has reached when the replies to its first `k` packets are taken. -/
structure AfterPackets (s : State) (out : Bytes) (cap : BitVec 32) (reply : Nat → Bytes) (k : Nat) (t : State) :
    Prop where
  moves : t.BlockMoves
  ready : t.rspReady = true
  fsm_eq : t.st.fsm = if k < packetCount out.length then .tx else .csOff
  obuf_eq : t.st.obuf = out
  cap_eq : t.st.cap = cap
  k_eq : t.st.k = k
  acc_eq : t.st.acc = (extract ((List.range k).map reply)).take (keepCount cap out.length)
  err_eq : t.st.err = none
  spd_eq : t.st.spd = s.st.spd
  req_eq : t.req = s.req.tail
  rsps_eq : t.rsps = s.rsps
  answers : t.Answers (packetCount out.length - k + 1) (packetCount out.length - k)
  replies : ∀ j, j < k → (reply j).length = payloadCount out j
  trace_eq : t.trace = s.trace ++ .out (csframe true) (.done 4) :: roundTransfers out reply k

section Exchange

variable {s : State} {out : Bytes} {cap : BitVec 32}

/-- Acceptance and CS_ON: no packet has been sent yet. -/
theorem State.Presents.afterPackets_zero (hp : s.Presents out cap)
    (ha : s.Answers (packetCount out.length + 2) (packetCount out.length)) (reply : Nat → Bytes) :
    ∃ t, runSteps 2 s = .next t ∧ AfterPackets s out cap reply 0 t := by
  obtain ⟨a, more, ho, hfull, hmore⟩ := ha.next_out
  have hon := step_csOn_full (s := ((s.setReq s.req.tail).loadExchange out cap).setFsm .csOn) hp.moves rfl ha.opened
    ho hfull
  refine ⟨_, (runSteps_succ hp.step_eq 1).trans (runSteps_one hon), ?_⟩
  exact {
    moves := ⟨hp.moves.1, assertSelect_rx _ _⟩
    ready := hp.ready
    fsm_eq := rfl
    obuf_eq := rfl
    cap_eq := rfl
    k_eq := rfl
    acc_eq := by simp [extract]
    err_eq := rfl
    spd_eq := rfl
    req_eq := rfl
    rsps_eq := rfl
    answers := hmore.congr rfl rfl rfl
    replies := by simp
    trace_eq := rfl }

/-- One more packet: TX and RX. -/
theorem AfterPackets.next {reply : Nat → Bytes} {k : Nat} {t : State} (h : AfterPackets s out cap reply k t)
    (hk : k < packetCount out.length) :
    ∃ u b, runSteps 2 t = .next u ∧ AfterPackets s out cap (Function.update reply k b) (k + 1) u := by
  obtain ⟨m, hm⟩ : ∃ m, packetCount out.length - k = m + 1 := ⟨packetCount out.length - k - 1, by omega⟩
  have hm' : packetCount out.length - (k + 1) = m := by omega
  have hans := h.answers
  rw [hm] at hans
  obtain ⟨a, outs, ho, ha, hans⟩ := hans.next_out
  obtain ⟨b, ins, hi, hb, hans⟩ := hans.next_in
  have hq : t.st.fsm = .tx := h.fsm_eq.trans (if_pos hk)
  obtain ⟨reply_k, far, draws, hlen, hrx, hrun⟩ :=
    runSteps_round_full h.moves hq (by rwa [h.k_eq, h.obuf_eq]) h.answers.opened ho ha hi hb
  simp only [h.k_eq, h.obuf_eq, h.cap_eq, h.acc_eq, h.trace_eq] at hlen hrun
  refine ⟨_, reply_k, hrun, ?_⟩
  exact {
    moves := ⟨h.moves.1, hrx⟩
    ready := h.ready
    fsm_eq := rfl
    obuf_eq := rfl
    cap_eq := rfl
    k_eq := rfl
    acc_eq := by
      rw [List.range_succ, List.map_append, map_range_update, List.map_singleton, Function.update_self]
      exact accumulate_take_extract _ _ _
    err_eq := h.err_eq
    spd_eq := h.spd_eq
    req_eq := h.req_eq
    rsps_eq := h.rsps_eq
    answers := by rw [hm']; exact hans.congr rfl rfl rfl
    replies := by
      intro j hj
      obtain rfl | hne := eq_or_ne j k
      · rw [Function.update_self, hlen]
      · rw [Function.update_of_ne hne, h.replies j (by omega)]
    trace_eq := by rw [roundTransfers_succ, roundTransfers_update, Function.update_self]; simp }

/-- CS_OFF and RESP after the last packet: the state an exchange that succeeds ends in. -/
theorem AfterPackets.finish {reply : Nat → Bytes} {t : State}
    (h : AfterPackets s out cap reply (packetCount out.length) t) :
    ∃ u, runSteps 2 t = .next u ∧ u.trace = s.trace ++ exchangeTransfers out reply ∧
      u.rsps = s.rsps ++
        [.okBytes ((extract ((List.range (packetCount out.length)).map reply)).take (min cap.toNat out.length))] ∧
      u.st.fsm = .idle ∧ u.st.cs = .deasserted ∧ u.st.err = none ∧ u.st.k = packetCount out.length ∧
      u.st.spd = s.st.spd ∧ u.req = s.req.tail := by
  obtain ⟨a, more, ho, ha, -⟩ := h.answers.next_out
  have hq : t.st.fsm = .csOff := h.fsm_eq.trans (if_neg (Nat.lt_irrefl _))
  have hoff := step_csOff_full h.moves hq h.answers.opened ho ha
  refine ⟨_, (runSteps_succ hoff 1).trans (runSteps_one (step_resp_ready ?_ rfl h.ready)),
    ?trace, ?rsps, rfl, rfl, h.err_eq, h.k_eq, h.spd_eq, h.req_eq⟩
  · exact ⟨h.moves.1, deassertSelect_rx _⟩
  case trace =>
    rw [exchangeTransfers_eq]
    simp [State.handBack, h.trace_eq]
  case rsps =>
    simp [State.handBack, h.rsps_eq, h.err_eq, h.acc_eq, exchangeResponse, keepCount]

end Exchange

/-- Settles O49: the packets one by one (`AfterPackets.next`), between the first two steps and the last two. -/
theorem exchangeSucceeds : Obligations.ExchangeSucceeds := by
  intro s out cap hp ha
  obtain ⟨t0, hrun0, h0⟩ := hp.afterPackets_zero ha fun _ => []
  obtain ⟨t, hrun, reply, h⟩ := runSteps_rounds (P := fun k t => ∃ reply, AfterPackets s out cap reply k t) ⟨_, h0⟩
    fun k t hk ⟨reply, h⟩ => by
      obtain ⟨u, b, hu, h'⟩ := h.next hk
      exact ⟨u, hu, _, h'⟩
  obtain ⟨u, hrun', hu⟩ := h.finish
  have hsteps : 2 * packetCount out.length + 4 = 2 + (2 * packetCount out.length + 2) := by omega
  exact ⟨u, reply, by rw [hsteps, runSteps_add hrun0, runSteps_add hrun, hrun'], h.replies, hu⟩

end Sys2Proof.Machine
end

section
/-! PROOFS of 30_encoding.md: decode and encode agree, code by code (R80 to R91), what is reserved is refused (R92), and the
three UIO sub-commands with the frames made of them (R82 to R85). -/

namespace Sys2Proof.Machine

/-! ### Decoding what encode writes -/

theorem decode_request_tile {payload : Bytes} (h : payload.length ≤ Config.lenMax) :
    decode (.request ⟨0x12#8, .manyBytes payload⟩) = .ok (.tile payload) := by
  simp [decode, decodeRequest, h]

theorem decode_uioOut (v : BitVec 6) :
    decode (.subCommand (Config.uioOut ||| v.setWidth 8)) = .ok (.uioStmOut v) := by
  revert v; decide

theorem decode_uioDir (v : BitVec 6) :
    decode (.subCommand (Config.uioDir ||| v.setWidth 8)) = .ok (.uioStmDir v) := by
  revert v; decide

/-- Settles O1, by the lemma about each row of the tables; the operand ranges are what `WellFormed` gives. -/
theorem decodeEncodeRoundTrip : Obligations.DecodeEncodeRoundTrip := by
  intro i hi
  cases i with
  | xchg out cap => exact decode_request_exchange (of_decide_eq_true hi)
  | speed mode dbl => rfl
  | rev b => rfl
  | csf sel => rfl
  | tile payload => exact decode_request_tile (of_decide_eq_true hi)
  | spiStream wire =>
    obtain ⟨hpos, hmax⟩ := of_decide_eq_true hi
    exact decode_stream hpos hmax
  | csAssert => exact decode_assert
  | csDeassert => exact decode_deassert
  | uioStmOut v => exact decode_uioOut v
  | uioStmDir v => exact decode_uioDir v
  | uioStmEnd => rfl
  | setSpeed mode dbl => exact decode_speedPacket mode dbl

theorem decode_of_encode_eq {i : Instr} {c : Code} (hi : i.WellFormed) (h : encode i = c) : decode c = .ok i :=
  h ▸ decodeEncodeRoundTrip i hi

/-- Settles O3: each word, computed, is the encoding of its instruction. -/
theorem specWordsDecode : Obligations.SpecWordsDecode :=
  ⟨decode_of_encode_eq rfl rfl, decode_of_encode_eq rfl rfl, decode_of_encode_eq rfl rfl, decode_of_encode_eq rfl rfl,
    decode_of_encode_eq rfl rfl, decode_of_encode_eq rfl rfl, decode_of_encode_eq rfl rfl, decode_of_encode_eq rfl rfl⟩

/-! ### Encoding what was decoded -/

/-- The match and operand bits of an output-bits sub-command are the whole byte (R82). -/
theorem uioOut_or_operand (b : Byte) (h : b &&& 0xC0#8 = Config.uioOut) :
    Config.uioOut ||| (b.extractLsb' 0 6).setWidth 8 = b := by
  revert b; decide

/-- The match and operand bits of a direction-mask sub-command are the whole byte (R82). -/
theorem uioDir_or_operand (b : Byte) (h : b &&& 0xC0#8 = Config.uioDir) :
    Config.uioDir ||| (b.extractLsb' 0 6).setWidth 8 = b := by
  revert b; decide

/-- The match and operand bits of the set-speed command are the whole byte (R86, R89). -/
theorem speedByte_operands (b : Byte) (h : b &&& 0xF8#8 = Config.i2cStmSet) :
    speedByte (b.extractLsb' 0 2) (b.getLsbD 2) = b := by
  revert b; decide

theorem encode_of_decodeRequest {r : ReqRecord} {i : Instr} (h : decodeRequest r = .ok i) :
    i.WellFormed ∧ encode i = .request r := by
  obtain ⟨op, args⟩ := r
  cases args with
  | exchange out cap =>
    simp only [decodeRequest] at h
    split_ifs at h with hop hlen
    cases h
    exact ⟨decide_eq_true hlen, by rw [hop, encode]⟩
  | busSpeed mode dbl =>
    simp only [decodeRequest] at h
    split_ifs at h with _ hop
    cases h
    exact ⟨rfl, by rw [hop, encode]⟩
  | oneByte b =>
    simp only [decodeRequest] at h
    split_ifs at h with _ _ hop
    cases h
    exact ⟨rfl, by rw [hop, encode]⟩
  | oneFlag sel =>
    simp only [decodeRequest] at h
    split_ifs at h with _ _ _ hop
    cases h
    exact ⟨rfl, by rw [hop, encode]⟩
  | manyBytes payload =>
    simp only [decodeRequest] at h
    split_ifs at h with _ _ _ _ hop hlen
    cases h
    exact ⟨decide_eq_true hlen, by rw [hop, encode]⟩

theorem encode_of_decodeSpeed {body : Bytes} {i : Instr} (h : decodeSpeed body = .ok i) :
    i.WellFormed ∧ encode i = .packet (Config.opI2cStream :: body) := by
  unfold decodeSpeed at h
  split at h
  · rename_i b e
    split_ifs at h with hbe
    obtain ⟨hb, rfl⟩ := hbe
    cases h
    exact ⟨rfl, by rw [encode, speedByte_operands b hb]⟩
  · cases h

theorem encode_of_decodePacket {p : Bytes} {i : Instr} (h : decodePacket p = .ok i) :
    i.WellFormed ∧ encode i = .packet p := by
  obtain ⟨ws, rfl, rfl, hpos, hmax⟩ | ⟨rfl, rfl⟩ | ⟨rfl, rfl⟩ | ⟨mode, dbl, -, hop⟩ := decode_packet_cases h
  · exact ⟨decide_eq_true ⟨hpos, hmax⟩, rfl⟩
  · exact ⟨rfl, rfl⟩
  · exact ⟨rfl, rfl⟩
  · obtain ⟨body, rfl⟩ := List.head?_eq_some_iff.mp hop
    exact encode_of_decodeSpeed h

theorem encode_of_decodeSubCommand {b : Byte} {i : Instr} (h : decodeSubCommand b = .ok i) :
    i.WellFormed ∧ encode i = .subCommand b := by
  unfold decodeSubCommand at h
  split_ifs at h with hout hdir hend
  · cases h; exact ⟨rfl, by rw [encode, uioOut_or_operand b hout]⟩
  · cases h; exact ⟨rfl, by rw [encode, uioDir_or_operand b hdir]⟩
  · cases h; exact ⟨rfl, by rw [encode, hend]⟩

/-- Settles O2, one case for each encoding space. -/
theorem decodedCodeIsTheEncoding : Obligations.DecodedCodeIsTheEncoding := by
  intro c i h
  cases c with
  | request r => exact encode_of_decodeRequest h
  | packet p => exact encode_of_decodePacket h
  | subCommand b => exact encode_of_decodeSubCommand h

/-! ### Reserved codes -/

/-- A code that no instruction is encoded as: reserved, or on REQ no request (R91, R92). -/
def Reserved (c : Code) : Prop := ∀ i : Instr, i.WellFormed → encode i ≠ c

theorem reserved_iff {c : Code} : Reserved c ↔ ∃ why, decode c = .error why := by
  constructor
  · intro hc
    cases h : decode c with
    | ok i =>
      obtain ⟨hi, he⟩ := decodedCodeIsTheEncoding c i h
      exact absurd he (hc i hi)
    | error why => exact ⟨why, rfl⟩
  · rintro ⟨why, h⟩ i hi he
    rw [decode_of_encode_eq hi he] at h
    cases h

/-- A reserved code is refused by the name of its space. -/
theorem Reserved.runCode_refused {c : Code} (h : Reserved c) (s : State) :
    ∃ why, runCode c s = .refused (refusalOf c why) := by
  obtain ⟨why, hd⟩ := reserved_iff.mp h
  exact ⟨why, by simp only [runCode, hd]⟩

theorem reserved_packet {p : Bytes} (hs : ∀ ws : Bytes, 1 ≤ ws.length → ws.length ≤ 31 → p ≠ 0xA8#8 :: ws)
    (ha : p ≠ [0xAB#8, 0xB6#8, 0x7F#8, 0x20#8]) (hd : p ≠ [0xAB#8, 0xB7#8, 0x20#8])
    (hv : ∀ mode dbl, p ≠ speedPacket mode dbl) : Reserved (.packet p) := by
  rintro i hi he
  cases i with
  | spiStream wire =>
    obtain ⟨hpos, hmax⟩ := of_decide_eq_true hi
    exact hs wire hpos hmax (Code.packet.inj he).symm
  | csAssert => exact ha (Code.packet.inj he).symm
  | csDeassert => exact hd (Code.packet.inj he).symm
  | setSpeed mode dbl => exact hv mode dbl (Code.packet.inj he).symm
  | _ => cases he

theorem uioOut_masked (v : BitVec 6) : (Config.uioOut ||| v.setWidth 8) &&& 0xC0#8 = 0x80#8 := by
  revert v; decide

theorem uioDir_masked (v : BitVec 6) : (Config.uioDir ||| v.setWidth 8) &&& 0xC0#8 = 0x40#8 := by
  revert v; decide

theorem reserved_subCommand {b : Byte} (ho : b &&& 0xC0#8 ≠ 0x80#8) (hd : b &&& 0xC0#8 ≠ 0x40#8) (he : b ≠ 0x20#8) :
    Reserved (.subCommand b) := by
  rintro i - h
  cases i with
  | uioStmOut v => cases h; exact ho (uioOut_masked v)
  | uioStmDir v => cases h; exact hd (uioDir_masked v)
  | uioStmEnd => cases h; exact he rfl
  | _ => cases h

theorem reserved_request {r : ReqRecord} (hx : r.op ≠ 0x01#8) (hs : r.op ≠ 0x02#8) (hr : r.op ≠ 0x10#8)
    (hc : r.op ≠ 0x11#8) (ht : r.op ≠ 0x12#8) : Reserved (.request r) := by
  rintro i - h
  cases i with
  | xchg out cap => cases h; exact hx rfl
  | speed mode dbl => cases h; exact hs rfl
  | rev b => cases h; exact hr rfl
  | csf sel => cases h; exact hc rfl
  | tile payload => cases h; exact ht rfl
  | _ => cases h

/-- Settles O4: in each space the code is one that no instruction is encoded as (`Reserved`), and the step runs it. -/
theorem reservedEncodingsAreRefused : Obligations.ReservedEncodingsAreRefused := by
  intro s hr
  refine ⟨?packet, ?subCommand, ?request⟩
  case packet =>
    intro p hne hx hu hs ha hd hv
    obtain ⟨b, more, rfl⟩ := List.exists_cons_of_ne_nil hne
    rw [step_of_fetchFar hr (fetchFar_packet hx hu)]
    exact (reserved_packet hs ha hd hv).runCode_refused _
  case subCommand =>
    intro b more hx hu ho hd he
    rw [step_of_fetchFar hr (fetchFar_subCommand hx hu)]
    exact (reserved_subCommand ho hd he).runCode_refused _
  case request =>
    intro r more hx hi hq hxchg hspeed hrev hcsf htile
    rw [step_request ⟨hr, hx⟩ hi hq]
    exact (reserved_request hxchg hspeed hrev hcsf htile).runCode_refused _

/-! ### The three sub-commands -/

theorem driveLines_of_output {f : FarEnd} (h : f.dirs.getLsbD 0 = true) (v : BitVec 6) :
    f.driveLines v = ({ f with lines := v } : FarEnd).setLevel (!v.getLsbD 0) := if_pos h

theorem driveLines_of_input {f : FarEnd} (h : f.dirs.getLsbD 0 = false) (v : BitVec 6) :
    f.driveLines v = { f with lines := v } := if_neg (ne_true_of_eq_false h)

/-- The chip-select level after the directions `v`: D0 made an output drives it, D0 no longer an output frees it, and D0
still an input leaves it (R85; log 14). -/
def FarEnd.levelAfterDirs (d : Nat) (v : BitVec 6) (f : FarEnd) : Bool :=
  if v.getLsbD 0 then !f.lines.getLsbD 0 else if f.dirs.getLsbD 0 then Config.freeLevel d else f.selected

/-- Setting directions is setting a level in every case; in the last it is the level there already. -/
theorem setDirs_eq_setLevel (d : Nat) (v : BitVec 6) (f : FarEnd) :
    f.setDirs d v = ({ f with dirs := v } : FarEnd).setLevel (f.levelAfterDirs d v) := by
  unfold FarEnd.setDirs FarEnd.levelAfterDirs
  split
  · rfl
  · split
    · rfl
    · exact (setLevel_of_eq rfl).symm

theorem execUioStmEnd_of_empty {s : State} (h : s.far.rx = []) :
    execUioStmEnd s = .next (s.setFar s.far.endStream) := by
  simp only [execUioStmEnd, h]

theorem execUioStmEnd_of_more {s : State} {b : Byte} {more : Bytes} (h : s.far.rx = b :: more) :
    execUioStmEnd s = .refused (.bytesAfterEnd (b :: more)) := by
  simp only [execUioStmEnd, h]

/-- Settles O35: the level follows line D0 where that is an output, by the closed form of `setLevel`. -/
theorem uioOutDrivesLines : Obligations.UioOutDrivesLines := by
  intro v s
  refine ⟨fun h => ?output, fun h => ?input⟩
  case output =>
    have hf := (driveLines_of_output h v).trans (setLevel_eq _ _)
    simp only [Bool.not_not] at hf
    exact congrArg (fun f => Host.Outcome.next (s.setFar f)) hf
  case input => exact congrArg (fun f => Host.Outcome.next (s.setFar f)) (driveLines_of_input h v)

/-- Settles O36, with the level of `levelAfterDirs`. -/
theorem uioDirSetsDirections : Obligations.UioDirSetsDirections := by
  intro v s
  refine ⟨s.far.levelAfterDirs s.draws v, fun h => if_pos h, fun hv hd => ?kept, ?effect⟩
  case kept => exact (if_neg (ne_true_of_eq_false hv)).trans (if_neg (ne_true_of_eq_false hd))
  case effect =>
    have hf := (setDirs_eq_setLevel s.draws v s.far).trans (setLevel_eq _ _)
    exact congrArg (fun f => Host.Outcome.next ((s.setFar f).addDraws 1)) hf

/-- Settles O37, by the two cases of what is left in the stream. -/
theorem uioEndClosesStream : Obligations.UioEndClosesStream :=
  fun _ => ⟨execUioStmEnd_of_empty, fun _ _ => execUioStmEnd_of_more⟩

/-! ### An open IO stream, byte by byte -/

/-- The far end `f` with the bytes `rest` of its stream still to run. -/
def State.inStream (s : State) (f : FarEnd) (rest : Bytes) : State := s.setFar { f with rx := rest }

theorem inStream_of_rx {f : FarEnd} {rest : Bytes} (h : f.rx = rest) (s : State) : s.inStream f rest = s.setFar f := by
  rw [← h]; rfl

/-- Setting a level commutes with what waits at the far end. -/
theorem setLevel_with_rx (level : Bool) (rest : Bytes) (f : FarEnd) :
    ({ f with rx := rest } : FarEnd).setLevel level = { f.setLevel level with rx := rest } := by
  simp only [setLevel_eq]

theorem driveLines_with_rx (v : BitVec 6) (rest : Bytes) (f : FarEnd) :
    ({ f with rx := rest } : FarEnd).driveLines v = { f.driveLines v with rx := rest } := by
  unfold FarEnd.driveLines
  split
  · exact setLevel_with_rx _ rest { f with lines := v }
  · rfl

theorem setDirs_with_rx (d : Nat) (v : BitVec 6) (rest : Bytes) (f : FarEnd) :
    ({ f with rx := rest } : FarEnd).setDirs d v = { f.setDirs d v with rx := rest } := by
  simp only [setDirs_eq_setLevel]
  exact setLevel_with_rx _ rest { f with dirs := v }

section InStream

variable {s : State} {f : FarEnd} {b : Byte} {rest : Bytes} {i : Instr}

theorem step_inStream (hr : s.rst = false) (hu : f.uioOpen = true) (hd : decode (.subCommand b) = .ok i) :
    step (s.inStream f (b :: rest)) = exec i (s.inStream f rest) := by
  obtain ⟨-, -, hsub⟩ := stepRunsDecodedInstruction (s.inStream f (b :: rest)) i hr
  exact hsub b rest rfl hu hd

theorem step_inStream_out {v : BitVec 6} (hr : s.rst = false) (hu : f.uioOpen = true)
    (hd : decode (.subCommand b) = .ok (.uioStmOut v)) :
    step (s.inStream f (b :: rest)) = .next (s.inStream (f.driveLines v) rest) :=
  (step_inStream hr hu hd).trans
    (congrArg (fun g => Host.Outcome.next (s.setFar g)) (driveLines_with_rx v rest f))

theorem step_inStream_dir {v : BitVec 6} (hr : s.rst = false) (hu : f.uioOpen = true)
    (hd : decode (.subCommand b) = .ok (.uioStmDir v)) :
    step (s.inStream f (b :: rest)) = .next ((s.addDraws 1).inStream (f.setDirs s.draws v) rest) :=
  (step_inStream hr hu hd).trans
    (congrArg (fun g => Host.Outcome.next ((s.addDraws 1).setFar g)) (setDirs_with_rx s.draws v rest f))

theorem step_inStream_end (hr : s.rst = false) (hu : f.uioOpen = true)
    (hd : decode (.subCommand b) = .ok .uioStmEnd) :
    step (s.inStream f [b]) = .next (s.inStream f.endStream []) :=
  (step_inStream hr hu hd).trans (execUioStmEnd_of_empty (s := s.inStream f []) rfl)

end InStream

/-- The assert frame's sub-commands alone select the device: they make D0 an output at 0 (R83, R85). -/
theorem assertSelect_eq_subCommands (d : Nat) (f : FarEnd) :
    f.assertSelect d = ((f.driveLines Config.csPatOn).setDirs d Config.csDirMask).endStream := by
  refine setLevel_of_eq ?_
  rw [endStream_selected, setDirs_eq_setLevel, setLevel_selected, FarEnd.levelAfterDirs, driveLines_lines]
  rfl

/-- The deassert frame's sub-commands alone deselect the device where D0 is an output: they drive it to 1 (R84, R85). -/
theorem deassertSelect_eq_subCommands {f : FarEnd} (h : f.dirs.getLsbD 0 = true) :
    f.deassertSelect = (f.driveLines Config.csPatOff).endStream := by
  refine setLevel_of_eq ?_
  rw [endStream_selected, driveLines_of_output h, setLevel_selected]
  rfl

theorem runSteps_assert_subCommands {s : State} {f : FarEnd} (hr : s.rst = false) (hu : f.uioOpen = true)
    (hx : f.rx = []) : runSteps 3 (s.inStream f [0xB6#8, 0x7F#8, 0x20#8]) =
      .next ((s.setFar (f.assertSelect s.draws)).addDraws 1) := by
  have hout := step_inStream_out (rest := [0x7F#8, 0x20#8]) hr hu (decode_uioOut Config.csPatOn)
  have hdir := step_inStream_dir (f := f.driveLines Config.csPatOn) (rest := [0x20#8]) hr (by simpa using hu)
    (decode_uioDir Config.csDirMask)
  have hend := step_inStream_end (s := s.addDraws 1)
    (f := (f.driveLines Config.csPatOn).setDirs s.draws Config.csDirMask) (b := 0x20#8) hr (by simpa using hu) rfl
  rw [← assertSelect_eq_subCommands, inStream_of_rx ((assertSelect_rx s.draws f).trans hx)] at hend
  exact (runSteps_succ hout 2).trans ((runSteps_succ hdir 1).trans (runSteps_one hend))

theorem runSteps_deassert_subCommands {s : State} {f : FarEnd} (hr : s.rst = false) (hu : f.uioOpen = true)
    (hx : f.rx = []) (hd : f.dirs.getLsbD 0 = true) :
    runSteps 2 (s.inStream f [0xB7#8, 0x20#8]) = .next (s.setFar f.deassertSelect) := by
  have hout := step_inStream_out (rest := [0x20#8]) hr hu (decode_uioOut Config.csPatOff)
  have hend := step_inStream_end (s := s) (f := f.driveLines Config.csPatOff) (b := 0x20#8) hr (by simpa using hu) rfl
  rw [← deassertSelect_eq_subCommands hd, inStream_of_rx ((deassertSelect_rx f).trans hx)] at hend
  exact (runSteps_succ hout 1).trans (runSteps_one hend)

/-- Settles O34: the stream runs byte by byte, and its last level is the frame's own. -/
theorem framesAreTheirSubCommands : Obligations.FramesAreTheirSubCommands := by
  intro s hr
  refine ⟨?assert, fun hd => ?deassert⟩
  case assert => exact runSteps_assert_subCommands (f := { s.far with rx := [], uioOpen := true }) hr rfl rfl
  case deassert => exact runSteps_deassert_subCommands (f := { s.far with rx := [], uioOpen := true }) hr rfl rfl hd

end Sys2Proof.Machine
end

section
/-! PROOFS of 40_bit_reversal.md: the bits of REV8 (R110), its laws (R112), the request REV (R111), and the exchange
on a loopback, whose replies reverse back to its payload (R112, R165, R167). -/

namespace Sys2Proof.Machine

/-! ### The bits of REV8 -/

theorem getLsbD_rev8 (b : Byte) {i : Nat} (hi : i ≤ 7) : (rev8 b).getLsbD i = b.getLsbD (7 - i) := by
  simp only [rev8, BitVec.getLsbD_append, BitVec.getLsbD_ofBool]
  interval_cases i <;> simp

/-- Bytes that agree in their eight bits are equal. -/
theorem byte_ext {x y : Byte} (h : ∀ i : Nat, i ≤ 7 → x.getLsbD i = y.getLsbD i) : x = y :=
  BitVec.eq_of_getLsbD_eq fun i hi => h i (Nat.lt_succ_iff.mp hi)

/-- The eight places counted from the other end are the places in reverse order. -/
theorem mirrored_places : (List.range 8).map (7 - ·) = (List.range 8).reverse := by decide

theorem toNat_eq_sum_bits (b : Byte) :
    b.toNat = ((List.range 8).map fun i => (b.getLsbD i).toNat <<< i).sum := by
  revert b; decide

/-- Settles O8: the number of `rev8 b` is the sum of its own bits, summed from the other end. -/
theorem rev8ReversesBits : Obligations.Rev8ReversesBits := by
  refine fun b => ⟨fun _ hi => getLsbD_rev8 b hi, ?_⟩
  calc (rev8 b).toNat
      = ((List.range 8).map fun i => ((rev8 b).getLsbD i).toNat <<< i).sum := toNat_eq_sum_bits _
    _ = (((List.range 8).reverse).map fun i => ((rev8 b).getLsbD i).toNat <<< i).sum := by
      rw [List.map_reverse, List.sum_reverse]
    _ = ((List.range 8).map fun i => (b.getLsbD i).toNat <<< (7 - i)).sum := by
      rw [← mirrored_places, List.map_map]
      refine congrArg List.sum (List.map_congr_left fun i hi => ?_)
      have hi : i ≤ 7 := Nat.lt_succ_iff.mp (List.mem_range.mp hi)
      simp only [Function.comp_apply, getLsbD_rev8 b (Nat.sub_le 7 i), Nat.sub_sub_self hi]

/-! ### The laws of REV8 -/

theorem rev8_or (a b : Byte) : rev8 (a ||| b) = rev8 a ||| rev8 b :=
  byte_ext fun i hi => by simp only [getLsbD_rev8 _ hi, BitVec.getLsbD_or]

theorem rev8_and (a b : Byte) : rev8 (a &&& b) = rev8 a &&& rev8 b :=
  byte_ext fun i hi => by simp only [getLsbD_rev8 _ hi, BitVec.getLsbD_and]

theorem rev8_xor (a b : Byte) : rev8 (a ^^^ b) = rev8 a ^^^ rev8 b :=
  byte_ext fun i hi => by simp only [getLsbD_rev8 _ hi, BitVec.getLsbD_xor]

theorem rev8_not (a : Byte) : rev8 (~~~a) = ~~~rev8 a :=
  byte_ext fun i hi => by
    have hi' : i < 8 := by omega
    have hj : 7 - i < 8 := by omega
    simp only [getLsbD_rev8 _ hi, BitVec.getLsbD_not, hi', hj]

/-- REV8 fixes exactly the palindromes; comparing the lower four bits with the upper four is enough. -/
theorem rev8_eq_self_iff (x : Byte) : rev8 x = x ↔ ∀ i : Nat, i ≤ 3 → x.getLsbD i = x.getLsbD (7 - i) := by
  constructor
  · intro h i hi
    rw [← getLsbD_rev8 x (by omega), h]
  · refine fun h => byte_ext fun i hi => ?_
    rw [getLsbD_rev8 x hi]
    obtain hlow | hhigh : i ≤ 3 ∨ 7 - i ≤ 3 := by omega
    · exact (h i hlow).symm
    · rw [h _ hhigh, Nat.sub_sub_self hi]

/-- The sixteen palindromes of R112. -/
def palindromes : List Byte :=
  [0x00#8, 0x18#8, 0x24#8, 0x3C#8, 0x42#8, 0x5A#8, 0x66#8, 0x7E#8, 0x81#8, 0x99#8, 0xA5#8, 0xBD#8, 0xC3#8, 0xDB#8,
    0xE7#8, 0xFF#8]

theorem rev8_eq_self_iff_mem (x : Byte) : rev8 x = x ↔ x ∈ palindromes := by
  revert x; decide

/-- REV8 keeps the number of 1 bits: it counts the same bits from the other end. -/
theorem rev8_ones (x : Byte) :
    ((List.range 8).filter fun i => (rev8 x).getLsbD i).length =
      ((List.range 8).filter fun i => x.getLsbD i).length := by
  simp only [← List.countP_eq_length_filter]
  calc (List.range 8).countP (fun i => (rev8 x).getLsbD i)
      = (List.range 8).countP ((fun i => x.getLsbD i) ∘ (7 - ·)) :=
        List.countP_congr fun i hi => by
          have hi : i ≤ 7 := Nat.lt_succ_iff.mp (List.mem_range.mp hi)
          rw [getLsbD_rev8 x hi, Function.comp_apply]
    _ = (List.range 8).countP fun i => x.getLsbD i := by
      rw [← List.countP_map, mirrored_places, List.countP_reverse]

/-- Settles O9: the laws one by one; the operators by bit, the bijection by the involution. -/
theorem rev8Laws : Obligations.Rev8Laws :=
  ⟨rev8_rev8, rfl, rfl, rfl, Function.Involutive.bijective rev8_rev8,
    fun a b => ⟨rev8_or a b, rev8_and a b, rev8_xor a b, rev8_not a⟩, rev8_eq_self_iff, rev8_eq_self_iff_mem, rev8_ones⟩

/-! ### The request REV -/

theorem rev8_palindrome {b : Byte} (h : ∀ i : Nat, i ≤ 7 → b.getLsbD i = b.getLsbD (7 - i)) : rev8 b = b :=
  (rev8_eq_self_iff b).mpr fun i hi => h i (by omega)

/-- R111: there are 16 palindromes. -/
theorem rev8_fixed_count :
    ((List.range 256).filter fun n => rev8 (BitVec.ofNat 8 n) = BitVec.ofNat 8 n).length = 16 := by
  decide

/-- Settles O13: taken in IDLE, left alone elsewhere. -/
theorem revAnswersReversedByte : Obligations.RevAnswersReversedByte := by
  refine ⟨fun b s hs => ?idle, fun b s hs => ?busy, fun _ => rfl, rfl, rfl, rfl, fun _ => rev8_palindrome,
    rev8_fixed_count⟩
  case idle => exact acceptInIdle_idle hs
  case busy => exact acceptInIdle_busy hs

/-! ### The chunks of a payload -/

/-- The first `k` chunks, in order, are the first `31 k` bytes of the payload. -/
theorem flatten_chunks (x : Bytes) (k : Nat) :
    ((List.range k).map (chunk x)).flatten = x.take (Config.payMax * k) := by
  induction k with
  | zero => simp
  | succ k ih => simp [List.range_succ, ih, chunk, Nat.mul_succ, List.take_add]

theorem le_packetCount_mul (len : Nat) : len ≤ Config.payMax * packetCount len := by
  have := (lt_packetCount_iff len (packetCount len)).not.mp (Nat.lt_irrefl _)
  omega

/-! ### The loopback through an exchange -/

/-- The replies of a loopback to the packets of `out`: their wire bytes (R58; log 25). -/
def echoReply (out : Bytes) (k : Nat) : Bytes := (chunk out k).map rev8

/-- The inbound transform of the loopback's replies is the payload: each byte is reversed twice (R112, R125). -/
theorem extract_echoReply (out : Bytes) :
    extract ((List.range (packetCount out.length)).map (echoReply out)) = out := by
  have hrev : List.map rev8 ∘ echoReply out = chunk out := funext fun k => map_rev8_map_rev8 (chunk out k)
  rw [extract, List.map_map, hrev, flatten_chunks, List.take_of_length_le (le_packetCount_mul _)]

theorem setLevel_echo {f : FarEnd} (h : f.device = .echo) (level : Bool) : (f.setLevel level).device = .echo := by
  simp only [setLevel_eq, h, Device.afterWindow, ite_self]

theorem assertSelect_echo {f : FarEnd} (h : f.device = .echo) (d : Nat) : (f.assertSelect d).device = .echo := by
  rw [assertSelect_eq]
  exact setLevel_echo (by exact h) true

/-- TX and RX of packet `k` on a loopback: the reply read is the packet's own wire bytes. -/
theorem runSteps_round_echo {s u : State} {outs ins : Nat} (hm : s.BlockMoves) (hq : s.st.fsm = .tx)
    (hk : s.st.k < packetCount s.st.obuf.length) (ha : s.Answers (outs + 1) (ins + 1)) (he : s.far.device = .echo)
    (hu : runSteps 2 s = .next u) :
    u.far.device = .echo ∧ u.trace = s.trace ++
      [.out (streamPacket s.st.obuf s.st.k) (.done (streamPacket s.st.obuf s.st.k).length),
        .inp (payloadCount s.st.obuf s.st.k) (.data (echoReply s.st.obuf s.st.k))] := by
  obtain ⟨_, _, ho, hout, ha'⟩ := ha.next_out
  obtain ⟨_, _, hi, hin, -⟩ := ha'.next_in
  have htx := step_tx_full hm hq hk ha.opened ho hout
  obtain ⟨hreply, hdev⟩ := stream_echo s.draws (echoReply s.st.obuf s.st.k)
    { s.far with rx := [], uioOpen := false } he
  have hrun := (runSteps_succ htx 1).trans
    (runSteps_one (step_rx_full ⟨hm.1, stream_rx _ _ _⟩ rfl ha.opened hi hin (by simp)))
  cases hu.symm.trans hrun
  exact ⟨hdev, by simpa [echoReply] using hreply⟩

/-- `AfterPackets` on a loopback, every reply so far the packet's own wire bytes. -/
structure AfterEchoes (s : State) (out : Bytes) (cap : BitVec 32) (k : Nat) (t : State) : Prop where
  after : AfterPackets s out cap (echoReply out) k t
  echo : t.far.device = .echo

section Loopback

variable {s : State} {out : Bytes} {cap : BitVec 32}

/-- Acceptance and CS_ON: selecting leaves the loopback in place. -/
theorem State.Presents.afterEchoes_zero (hp : s.Presents out cap) (he : s.far.device = .echo)
    (ha : s.Answers (packetCount out.length + 2) (packetCount out.length)) :
    ∃ t, runSteps 2 s = .next t ∧ AfterEchoes s out cap 0 t := by
  obtain ⟨t, ht, h⟩ := hp.afterPackets_zero ha (echoReply out)
  obtain ⟨a, more, ho, hfull, -⟩ := ha.next_out
  have hon := step_csOn_full (s := ((s.setReq s.req.tail).loadExchange out cap).setFsm .csOn) hp.moves rfl ha.opened
    ho hfull
  refine ⟨t, ht, h, ?_⟩
  cases ht.symm.trans ((runSteps_succ hp.step_eq 1).trans (runSteps_one hon))
  exact assertSelect_echo (by exact he) _

/-- One more packet: the reply that `AfterPackets.next` leaves open is the one the loopback gives. -/
theorem AfterEchoes.next {k : Nat} {t : State} (h : AfterEchoes s out cap k t) (hk : k < packetCount out.length) :
    ∃ u, runSteps 2 t = .next u ∧ AfterEchoes s out cap (k + 1) u := by
  obtain ⟨u, b, hu, hnext⟩ := h.after.next hk
  obtain ⟨m, hm⟩ := Nat.exists_eq_add_of_lt hk
  have ha := h.after.answers
  rw [show packetCount out.length - k = m + 1 by omega] at ha
  obtain ⟨hecho, htrace⟩ := runSteps_round_echo h.after.moves (h.after.fsm_eq.trans (if_pos hk))
    (by rwa [h.after.k_eq, h.after.obuf_eq]) ha h.echo hu
  have hb : b = echoReply out k := by
    rw [hnext.trace_eq, roundTransfers_succ, roundTransfers_update, Function.update_self, h.after.trace_eq,
      h.after.k_eq, h.after.obuf_eq] at htrace
    simpa using htrace
  rw [hb, Function.update_eq_self] at hnext
  exact ⟨u, hu, hnext, hecho⟩

end Loopback

/-- Settles O50: on a loopback the replies that `exchangeSucceeds` leaves open are the wire bytes, which extract to
`out`. -/
theorem exchangeUnderLoopback : Obligations.ExchangeUnderLoopback := by
  intro s out cap hp he ha
  obtain ⟨t0, hrun0, h0⟩ := hp.afterEchoes_zero he ha
  obtain ⟨t, hrun, h⟩ := runSteps_rounds h0 fun _ _ hk h => h.next hk
  obtain ⟨u, hrun', htrace, hrsps, -⟩ := h.after.finish
  have hsteps : 2 * packetCount out.length + 4 = 2 + (2 * packetCount out.length + 2) := by omega
  rw [extract_echoReply, ← List.take_take, List.take_length] at hrsps
  exact ⟨u, by rw [hsteps, runSteps_add hrun0, runSteps_add hrun, hrun'], htrace, hrsps⟩

end Sys2Proof.Machine
end

section
/-! PROOFS of 41_framer.md: the chip-select frames (R121), the packets of a tiling (R123) and their counting laws (R124),
and the requests CSF and TILE (R120, R122), which like REV answer in two steps (R126). -/

namespace Sys2Proof.Machine

/-! ### The chip-select frames -/

/-- R121, log 16: the frame that asserts, in bytes. -/
theorem csframe_true_bytes : csframe true = [0xAB#8, 0xB6#8, 0x7F#8, 0x20#8] := by decide

/-- R121, log 16: the frame that deasserts, in bytes. -/
theorem csframe_false_bytes : csframe false = [0xAB#8, 0xB7#8, 0x20#8] := by decide

/-- Settles O10: the parameters are how the frames are defined, the bytes are their values. -/
theorem csframeBytes : Obligations.CsframeBytes :=
  ⟨rfl, rfl, csframe_true_bytes, csframe_false_bytes⟩

/-! ### The number of packets -/

/-- The model's integer division is the `ceil(L/31)` of R123: both count the `k` with `31 * k < L`. -/
theorem packetCount_eq_ceil (len : Nat) : packetCount len = ⌈(len : ℚ) / 31⌉₊ :=
  eq_of_forall_lt_iff fun k => by
    rw [lt_packetCount_iff, Nat.lt_ceil, lt_div_iff₀ (by norm_num), mul_comm]
    exact_mod_cast Iff.rfl

@[simp] theorem tile_length (x : Bytes) : (tile x).length = packetCount x.length := by
  simp [tile]

theorem tile_of_empty {x : Bytes} (h : x.length = 0) : tile x = [] := by
  rw [List.length_eq_zero_iff.mp h]; rfl

/-! ### The packets -/

theorem tile_getElem? {x : Bytes} {k : Nat} (h : k < packetCount x.length) :
    (tile x)[k]? = some (streamPacket x k) := by
  simp [tile, h]

/-- Packet `k` of a tiling is stream packet `k`. -/
theorem eq_streamPacket_of_tile_getElem? {x p : Bytes} {k : Nat} (h : (tile x)[k]? = some p) :
    k < packetCount x.length ∧ p = streamPacket x k := by
  have hk : k < packetCount x.length := tile_length x ▸ (List.getElem?_eq_some_iff.mp h).1
  exact ⟨hk, Option.some.inj (h.symm.trans (tile_getElem? hk))⟩

theorem mem_tile {x p : Bytes} : p ∈ tile x ↔ ∃ k < packetCount x.length, streamPacket x k = p := by
  simp [tile]

theorem tile_getLast? {x p : Bytes} (h : (tile x).getLast? = some p) :
    1 ≤ packetCount x.length ∧ p = streamPacket x (packetCount x.length - 1) := by
  rw [List.getLast?_eq_getElem?, tile_length] at h
  obtain ⟨hlt, hp⟩ := eq_streamPacket_of_tile_getElem? h
  exact ⟨by omega, hp⟩

/-- The payload bytes of packet `k` by their two ends, as R123 writes them. -/
theorem chunk_eq_drop_take (x : Bytes) (k : Nat) :
    chunk x k = (x.take (min (31 * k + 31) x.length)).drop (31 * k) := by
  rw [← List.take_take, List.take_length, List.drop_take, Nat.add_sub_cancel_left]; rfl

/-- R124: 31 payload bytes and the marker at most, one payload byte and the marker at least. -/
theorem streamPacket_length_bounds {x : Bytes} {k : Nat} (h : k < packetCount x.length) :
    2 ≤ (streamPacket x k).length ∧ (streamPacket x k).length ≤ 32 := by
  rw [streamPacket_length]
  exact ⟨Nat.succ_le_succ (chunk_length_pos h), Nat.succ_le_succ (chunk_length_le x k)⟩

/-- A packet with another one after it is full: the next one starts inside the payload. -/
theorem chunk_length_of_next {x : Bytes} {k : Nat} (h : k + 1 < packetCount x.length) : (chunk x k).length = 31 := by
  rw [lt_packetCount_iff] at h
  rw [chunk_length]
  simp only [Config.payMax] at *; omega

/-- The last packet carries what the full ones before it leave. -/
theorem chunk_length_last {x : Bytes} (h : 1 ≤ packetCount x.length) :
    (chunk x (packetCount x.length - 1)).length = x.length - 31 * (packetCount x.length - 1) := by
  have hle := le_packetCount_mul x.length
  rw [chunk_length]
  simp only [Config.payMax] at *; omega

/-- Settles O11: the packets of a tiling are the stream packets, and the lengths are those of their chunks. -/
theorem tileSplitsGreedily : Obligations.TileSplitsGreedily := by
  intro x
  refine ⟨(tile_length x).trans (packetCount_eq_ceil _), fun k hk => ?packet, fun k hk p hp => ?full, fun p hp => ?last,
    tile_of_empty⟩
  case packet =>
    rw [tile_length] at hk
    rw [tile_getElem? hk, ← chunk_eq_drop_take]
    rfl
  case full =>
    rw [tile_length] at hk
    obtain ⟨-, rfl⟩ := eq_streamPacket_of_tile_getElem? hp
    rw [streamPacket_length, chunk_length_of_next hk]
  case last =>
    obtain ⟨hpos, rfl⟩ := tile_getLast? hp
    refine ⟨?_, streamPacket_length_bounds (by omega)⟩
    rw [streamPacket_length, chunk_length_last hpos, tile_length, Nat.add_comm]

/-! ### The counting laws -/

/-- Without its marker and with its bytes reversed again, stream packet `k` is the chunk it was made of. -/
theorem tile_map_untiled (x : Bytes) :
    ((tile x).map fun p => p.tail.map rev8) = (List.range (packetCount x.length)).map (chunk x) := by
  rw [tile, List.map_map]
  exact List.map_congr_left fun k _ => map_rev8_map_rev8 (chunk x k)

/-- Untiling inverts tiling (R124). -/
theorem tile_untiled_flatten (x : Bytes) : ((tile x).map fun p => p.tail.map rev8).flatten = x := by
  rw [tile_map_untiled, flatten_chunks, List.take_of_length_le (le_packetCount_mul _)]

/-- The payload lengths of a tiling sum to that of the payload: they are the lengths of the pieces it is joined from. -/
theorem tile_payload_sum (x : Bytes) : ((tile x).map fun p => p.length - 1).sum = x.length :=
  calc ((tile x).map fun p => p.length - 1).sum
      = (((tile x).map fun p => p.tail.map rev8).map List.length).sum := by
        simp only [List.map_map, Function.comp_def, List.length_map, List.length_tail]
    _ = x.length := by rw [← List.length_flatten, tile_untiled_flatten]

/-- Each packet adds its marker to its payload. -/
theorem tile_total_sum (x : Bytes) : ((tile x).map List.length).sum = x.length + (tile x).length := by
  have hmarker : ∀ p ∈ tile x, p.length = (p.length - 1) + 1 := fun p hp => by
    obtain ⟨k, -, rfl⟩ := mem_tile.mp hp
    rw [streamPacket_length]; rfl
  rw [List.map_congr_left hmarker, List.sum_map_add, tile_payload_sum, List.map_const', List.sum_replicate, smul_eq_mul,
    Nat.mul_one]

/-- Settles O12: lengths from the chunks, sums from the payload that untiling gives back. -/
theorem tileCountingLaws : Obligations.TileCountingLaws := by
  intro x
  refine ⟨(tile_length x).trans (packetCount_eq_ceil _), fun p hp => ?bounds, fun k _ p hp => ?payload,
    tile_payload_sum x, tile_total_sum x, tile_untiled_flatten x⟩
  case bounds =>
    obtain ⟨k, hk, rfl⟩ := mem_tile.mp hp
    exact streamPacket_length_bounds hk
  case payload =>
    obtain ⟨-, rfl⟩ := eq_streamPacket_of_tile_getElem? hp
    rw [streamPacket_length, Nat.add_sub_cancel, chunk_length]
    rfl

/-! ### The requests -/

/-- Settles O14: taken in IDLE, left alone elsewhere. -/
theorem csfAnswersFrame : Obligations.CsfAnswersFrame := by
  refine ⟨fun sel s hs => ?idle, fun sel s hs => ?busy, fun _ => rfl, csframe_true_length, csframe_false_length,
    csframe_true_bytes⟩
  case idle => exact acceptInIdle_idle hs
  case busy => exact acceptInIdle_busy hs

theorem tile_wellFormed_iff (x : Bytes) : (Instr.tile x).WellFormed ↔ x.length ≤ Config.lenMax :=
  decide_eq_true_iff

/-- The lengths of a tiling's packets depend on that of the payload alone. -/
theorem tile_lengths {x : Bytes} {len : Nat} (h : x.length = len) :
    (tile x).map List.length = (List.range (packetCount len)).map fun k => min 31 (len - 31 * k) + 1 := by
  subst h
  rw [tile, List.map_map]
  refine List.map_congr_left fun k _ => ?_
  rw [Function.comp_apply, streamPacket_length, chunk_length]
  rfl

/-- Settles O15: taken in IDLE, left alone elsewhere; the corner cases are values of `tile_lengths`. -/
theorem tileAnswersPackets : Obligations.TileAnswersPackets := by
  refine ⟨fun x s hs => ?idle, fun x s hs => ?busy, fun _ => rfl, tile_wellFormed_iff, fun _ => tile_of_empty,
    fun _ h => tile_lengths h, fun _ h => tile_lengths h, fun _ h => tile_lengths h, fun _ h => tile_lengths h, rfl⟩
  case idle => exact acceptInIdle_idle hs
  case busy => exact acceptInIdle_busy hs

/-- REV, CSF and TILE respond at once, with an answer that their operand alone gives. -/
theorem exec_pure_request {i : Instr}
    (h : (∃ b, i = .rev b) ∨ (∃ sel, i = .csf sel) ∨ ∃ x, i = .tile x) :
    ∃ r, ∀ s : State, exec i s = s.acceptInIdle (s.respond r) := by
  obtain ⟨b, rfl⟩ | ⟨sel, rfl⟩ | ⟨x, rfl⟩ := h
  · exact ⟨.okBytes [rev8 b], fun _ => rfl⟩
  · exact ⟨.okBytes (csframe sel), fun _ => rfl⟩
  · exact ⟨.okPackets (tile x), fun _ => rfl⟩

/-- Settles O16: accepted with a response, which the next step hands back. -/
theorem pureRequestsTakeTwoSteps : Obligations.PureRequestsTakeTwoSteps := by
  intro i s hi
  obtain ⟨r, hr⟩ := exec_pure_request hi
  rw [hr]
  refine ⟨fun hs => ⟨r, acceptInIdle_idle hs, fun hm hready => ?taken⟩, fun hs => acceptInIdle_busy hs⟩
  case taken => exact step_resp_ready (s := s.respond r) hm rfl hready

end Sys2Proof.Machine
end

section
/-! PROOFS of 42_chip_select.md: the two frame actions (R141, R142), who may touch the chip-select (R140, R145), the one
SPI command sequence of an exchange that succeeds (R147), and the frames and the end of every exchange (R143, R144,
R175). -/

namespace Sys2Proof.Machine

/-! ### What a step that issues a transfer leaves unchanged -/

theorem State.PortsKept.trans {s t u : State} (h : s.PortsKept t) (h' : t.PortsKept u) : s.PortsKept u :=
  ⟨h'.req_kept.trans h.req_kept, h'.rspReady_kept.trans h.rspReady_kept, h'.rsps_kept.trans h.rsps_kept,
    h'.session_kept.trans h.session_kept, h'.rst_kept.trans h.rst_kept⟩

theorem OnlyFar.portsKept {s t : State} (h : OnlyFar s t) : s.PortsKept t := by
  rw [h]; exact ⟨rfl, rfl, rfl, rfl, rfl⟩

theorem OutTaken.portsKept {p : Bytes} {s s1 : State} {r : OutResult} (h : OutTaken p s r s1) : s.PortsKept s1 :=
  ⟨h.req_eq, h.rspReady_eq, h.rsps_eq, h.session_eq, h.rst_eq⟩

theorem InTaken.portsKept {n : Nat} {s s1 : State} {r : InResult} (h : InTaken n s r s1) : s.PortsKept s1 :=
  ⟨h.req_eq, h.rspReady_eq, h.rsps_eq, h.session_eq, h.rst_eq⟩

/-- `t` differs from `s` at most in the block. -/
def OnlyBlock (s t : State) : Prop := t = { s with st := t.st }

theorem OnlyBlock.portsKept {s t : State} (h : OnlyBlock s t) : s.PortsKept t := by
  rw [h]; exact ⟨rfl, rfl, rfl, rfl, rfl⟩

/-- The transport's answer decides the result of the transfer, and is used up by it. -/
theorem OutTaken.of_answer {p : Bytes} {s s0 s1 : State} {r : OutResult} {a : Answer} (h : OutTaken p s r s1)
    (ha : s.answerOut = some (a, s0)) : r = outResult a p.length ∧ s1.outs = s0.outs := by
  obtain ⟨a', s0', ha', hr, houts⟩ := h.answered
  cases ha.symm.trans ha'
  exact ⟨hr, houts⟩

theorem InTaken.of_answer {n : Nat} {s s0 s1 : State} {r : InResult} {a : Answer} (h : InTaken n s r s1)
    (ha : s.answerIn = some (a, s0)) : r = inResult a n s.far.reply ∧ s1.ins = s0.ins := by
  obtain ⟨a', s0', ha', hr, hins⟩ := h.answered
  cases ha.symm.trans ha'
  exact ⟨hr, hins⟩

/-- The step from `s` issues the transfer `x` and leaves `t`: outside the block and the far end only the answers left
and the trace are new, and nothing is left waiting at the far end. -/
structure StepIssues (s : State) (x : Transfer) (outs ins : List Answer) (t : State) : Prop where
  step_eq : step s = .next t
  ports : s.PortsKept t
  outs_eq : t.outs = outs
  ins_eq : t.ins = ins
  trace_eq : t.trace = s.trace ++ [x]
  rx_empty : t.far.rx = []

theorem StepIssues.moves {s t : State} {x : Transfer} {outs ins : List Answer} (h : StepIssues s x outs ins t)
    (hm : s.BlockMoves) : t.BlockMoves :=
  ⟨h.ports.rst_kept.trans hm.1, h.rx_empty⟩

/-- A step that sends a packet the far end can run: a full result has it run in the same step (R54; log 22). -/
theorem OutTaken.stepIssues {s s0 s1 v : State} {a : Answer} {p : Bytes} {i : Instr}
    (ho : OutTaken p s (outResult a p.length) s1) (hm : s.BlockMoves) (hq : s.st.fsm ≠ .idle)
    (ha : s.answerOut = some (a, s0)) (hd : decode (.packet p) = .ok i) (hb : blockStep s = v) (hv : OnlyBlock s1 v) :
    ∃ t, StepIssues s (.out p (outResult a p.length)) s0.outs s.ins t ∧ t.st = v.st ∧
      (outResult a p.length = .done p.length →
        exec i (v.setFar { s.far with rx := [], uioOpen := false }) = .next t) := by
  have hfar : v.far = s1.far := by rw [hv]
  have hrun : ∃ t, runDelivered v = .next t ∧ t.far.rx = [] ∧ (outResult a p.length = .done p.length →
      exec i (v.setFar { s.far with rx := [], uioOpen := false }) = .next t) := by
    by_cases hr : outResult a p.length = .done p.length
    · have hdel : v.far = { s.far with rx := p, uioOpen := false } := hfar.trans (ho.delivered hr).1
      have hne : p ≠ [] := by rintro rfl; cases hd
      obtain ⟨t, ht, hx, -⟩ := deliver_ok (s' := v) (by rw [hdel]) hne (by rw [hdel]) hd
      refine ⟨t, ht, hx, fun _ => ?_⟩
      rw [run_of_delivered (by rw [hdel]) hne (by rw [hdel]) hd, hdel] at ht
      exact ht
    · have hx : v.far.rx = [] := by rw [hfar, ho.far_rx_of_not_done hr, hm.2]
      exact ⟨v, runDelivered_empty hx, hx, fun h => absurd h hr⟩
  obtain ⟨t, ht, hx, hexec⟩ := hrun
  have honly : OnlyFar v t := runDelivered_onlyFar ht
  have hports : s.PortsKept t := (ho.portsKept.trans hv.portsKept).trans honly.portsKept
  refine ⟨t, ⟨by rw [step_busy hm hq, hb, ht], hports, ?outs, ?ins, ?trace, hx⟩, honly.st_eq, hexec⟩
  case outs => rw [honly, hv]; exact (ho.of_answer ha).2
  case ins => rw [honly, hv]; exact ho.ins_eq
  case trace => rw [honly, hv]; exact ho.trace_eq

/-! ### The steps of an exchange, whatever the transport answers -/

section Answered

variable {s s0 : State} {a : Answer}

/-- CS_ON with an answer (R141, R162). -/
theorem step_csOn_answered (hm : s.BlockMoves) (hq : s.st.fsm = .csOn) (ha : s.answerOut = some (a, s0)) :
    ∃ t, StepIssues s (.out (csframe true) (outResult a 4)) s0.outs s.ins t ∧
      t.st = (if outResult a 4 = .done 4 then
          { s.st with cs := .asserted, fsm := if 0 < packetCount s.st.obuf.length then .tx else .csOff }
        else { s.st with cs := .unknown, err := firstError s.st.err (errOfOut (outResult a 4)), fsm := .csOff }) ∧
      (outResult a 4 = .done 4 → t.far.selected = true) := by
  obtain ⟨hnone, _⟩ | ⟨r, s1, ho, e⟩ := csOnStep_cases s
  · simp [ha] at hnone
  obtain ⟨rfl, -⟩ := ho.of_answer ha
  rw [csframe_true_length] at ho e
  obtain ⟨t, ht, hst, hrun⟩ := ho.stepIssues hm (by simp [hq]) ha decode_assert
    (by simp only [blockStep, hq, e]; rfl) (by split <;> rfl)
  refine ⟨t, ht, ?st, fun hr => ?selected⟩
  case st => rw [hst, ← ho.st_eq]; split <;> rfl
  case selected => cases hrun hr; exact assertSelect_selected _ _

/-- TX with an answer (R163). -/
theorem step_tx_answered {p : Bytes} (hm : s.BlockMoves) (hq : s.st.fsm = .tx)
    (hk : s.st.k < packetCount s.st.obuf.length) (hp : streamPacket s.st.obuf s.st.k = p)
    (ha : s.answerOut = some (a, s0)) :
    ∃ t, StepIssues s (.out p (outResult a p.length)) s0.outs s.ins t ∧
      t.st = if outResult a p.length = .done p.length then { s.st with fsm := .rx }
        else { s.st with err := firstError s.st.err (errOfOut (outResult a p.length)), fsm := .csOff } := by
  obtain ⟨hnone, _⟩ | ⟨r, s1, ho, e⟩ := txStep_cases s
  · simp [ha] at hnone
  obtain ⟨rfl, -⟩ := ho.of_answer ha
  have hd := decode_streamPacket hk
  rw [hp] at ho e hd
  obtain ⟨t, ht, hst, -⟩ := ho.stepIssues hm (by simp [hq]) ha hd (by simp only [blockStep, hq, e]; rfl)
    (by split <;> rfl)
  refine ⟨t, ht, ?_⟩
  rw [hst, ← ho.st_eq]
  split <;> rfl

/-- RX with an answer: the reply taken, or an error recorded (R164, R165). -/
theorem step_rx_answered (hm : s.BlockMoves) (hq : s.st.fsm = .rx) (ha : s.answerIn = some (a, s0)) :
    ∃ t r, StepIssues s (.inp (payloadCount s.st.obuf s.st.k) r) s.outs s0.ins t ∧
      ((∃ b, b.length = payloadCount s.st.obuf s.st.k ∧
          t.st = { s.st with
            acc := accumulate (keepCount s.st.cap s.st.obuf.length) s.st.acc b
            k := s.st.k + 1
            fsm := if s.st.k + 1 < packetCount s.st.obuf.length then .tx else .csOff }) ∨
        ∃ e, t.st = { s.st with err := firstError s.st.err e, fsm := .csOff }) := by
  obtain ⟨hnone, _⟩ | ⟨r, s1, ht, hcases⟩ := rxStep_cases s
  · simp [ha] at hnone
  have hstep : step s = runDelivered (rxStep s) := by rw [step_busy hm (by simp [hq])]; simp only [blockStep, hq]
  have hissues (hv : OnlyBlock s1 (rxStep s)) :
      StepIssues s (.inp (payloadCount s.st.obuf s.st.k) r) s.outs s0.ins (rxStep s) := by
    have hx : (rxStep s).far.rx = [] := by rw [hv]; exact ht.far_rx.trans hm.2
    refine ⟨hstep.trans (runDelivered_empty hx), ht.portsKept.trans hv.portsKept, ?outs, ?ins, ?trace, hx⟩
    case outs => rw [hv]; exact ht.outs_eq
    case ins => rw [hv]; exact (ht.of_answer ha).2
    case trace => rw [hv]; exact ht.trace_eq
  obtain ⟨b, rfl, hb, e⟩ | ⟨-, e⟩ := hcases
  · exact ⟨_, _, hissues (by rw [e]; rfl), .inl ⟨b, hb, by rw [e, ← ht.st_eq]; rfl⟩⟩
  · exact ⟨_, _, hissues (by rw [e]; rfl), .inr ⟨errOfIn r, by rw [e, ← ht.st_eq]; rfl⟩⟩

/-- CS_OFF with an answer (R142, R166). -/
theorem step_csOff_answered (hm : s.BlockMoves) (hq : s.st.fsm = .csOff) (ha : s.answerOut = some (a, s0)) :
    ∃ t, StepIssues s (.out (csframe false) (outResult a 3)) s0.outs s.ins t ∧
      t.st = (if outResult a 3 = .done 3 then
          { s.st with cs := .deasserted, rsp := exchangeResponse s.st.err s.st.acc, fsm := .resp }
        else
          { s.st with
            cs := .unknown
            err := firstError s.st.err (errOfOut (outResult a 3))
            rsp := exchangeResponse (firstError s.st.err (errOfOut (outResult a 3))) s.st.acc
            fsm := .resp }) ∧
      (outResult a 3 = .done 3 → t.far.selected = false) := by
  obtain ⟨hnone, _⟩ | ⟨r, s1, ho, e⟩ := csOffStep_cases s
  · simp [ha] at hnone
  obtain ⟨rfl, -⟩ := ho.of_answer ha
  rw [csframe_false_length] at ho e
  obtain ⟨t, ht, hst, hrun⟩ := ho.stepIssues hm (by simp [hq]) ha decode_deassert
    (by simp only [blockStep, hq, e]; rfl) (by split <;> rfl)
  refine ⟨t, ht, ?st, fun hr => ?selected⟩
  case st => rw [hst, ← ho.st_eq]; split <;> rfl
  case selected => cases hrun hr; exact deassertSelect_selected _

end Answered

/-- The first error wins (R213). -/
theorem firstError_eq (old : Option Error) (e : Error) : firstError old e = some (old.getD e) := by
  cases old <;> rfl

theorem packetCount_pos_iff (x : Bytes) : 0 < packetCount x.length ↔ x ≠ [] := by
  rw [lt_packetCount_iff, Nat.mul_zero, List.length_pos_iff]

/-- Settles O20: the step of `step_csOn_answered`. -/
theorem csOnSendsAssertFrame : Obligations.CsOnSendsAssertFrame := by
  intro s s0 a hm hq ha
  obtain ⟨t, ht, hst, hsel⟩ := step_csOn_answered hm hq ha
  refine ⟨t, ht.step_eq, ht.ports, ht.outs_eq, ht.ins_eq, ht.trace_eq, fun hr => ⟨?sent, hsel hr⟩, fun hr => ?failed⟩
  case sent =>
    rw [hst, if_pos hr]
    simp only [packetCount_pos_iff, ne_eq, ite_not]
  case failed => rw [hst, if_neg hr, firstError_eq]

/-- Settles O23: the step of `step_csOff_answered`. -/
theorem csOffSendsDeassertFrame : Obligations.CsOffSendsDeassertFrame := by
  intro s s0 a hm hq ha
  obtain ⟨t, ht, hst, hsel⟩ := step_csOff_answered hm hq ha
  refine ⟨t, ht.step_eq, ht.ports, ht.outs_eq, ht.ins_eq, ht.trace_eq, fun hr => ⟨?sent, hsel hr⟩, fun hr => ?failed⟩
  case sent => rw [hst, if_pos hr]; cases s.st.err <;> rfl
  case failed => rw [hst, if_neg hr, firstError_eq]; rfl

/-! ### Who touches the chip-select -/

/-- The transfer of a chip-select frame. -/
def Transfer.IsFrame (x : Transfer) : Prop := ∃ sel r, x = .out (csframe sel) r

theorem csframe_head? (sel : Bool) : (csframe sel).head? = some Config.opUioStream := by
  cases sel <;> rfl

theorem streamPacket_ne_csframe (x : Bytes) (k : Nat) (sel : Bool) : streamPacket x k ≠ csframe sel := fun h =>
  have hop : some Config.opSpiStream = some Config.opUioStream := (congrArg List.head? h).trans (csframe_head? sel)
  absurd hop (by decide)

theorem speedPacket_ne_csframe (mode : BitVec 2) (dbl sel : Bool) : speedPacket mode dbl ≠ csframe sel := fun h =>
  have hop : some Config.opI2cStream = some Config.opUioStream := (congrArg List.head? h).trans (csframe_head? sel)
  absurd hop (by decide)

theorem out_isFrame_iff {p : Bytes} {r : OutResult} : (Transfer.out p r).IsFrame ↔ ∃ sel, p = csframe sel := by
  simp [Transfer.IsFrame]

theorem not_isFrame_inp (n : Nat) (r : InResult) : ¬ (Transfer.inp n r).IsFrame := by
  simp [Transfer.IsFrame]

theorem not_isFrame_stream (x : Bytes) (k : Nat) (r : OutResult) : ¬ (Transfer.out (streamPacket x k) r).IsFrame := by
  simp [out_isFrame_iff, streamPacket_ne_csframe]

theorem not_isFrame_speed (mode : BitVec 2) (dbl : Bool) (r : OutResult) :
    ¬ (Transfer.out (speedPacket mode dbl) r).IsFrame := by
  simp [out_isFrame_iff, speedPacket_ne_csframe]

/-- Outside CS_ON and CS_OFF the block's transaction leaves the chip-select record and sends no frame (R140, R145). -/
theorem Transaction.leaves_chipSelect {s t : State} (h : Transaction s t) (hon : s.st.fsm ≠ .csOn)
    (hoff : s.st.fsm ≠ .csOff) :
    t.st.cs = s.st.cs ∧ (t.trace = s.trace ∨ ∃ x, t.trace = s.trace ++ [x] ∧ ¬ x.IsFrame) := by
  cases h with
  | hold => exact ⟨rfl, .inl rfl⟩
  | handedBack _ => exact ⟨rfl, .inl rfl⟩
  | assertSent hq _ => exact absurd hq hon
  | assertFailed hq _ _ => exact absurd hq hon
  | packetSent _ ho => exact ⟨by simp [ho.st_eq], .inr ⟨_, ho.trace_eq, not_isFrame_stream _ _ _⟩⟩
  | packetFailed _ ho _ => exact ⟨by simp [ho.st_eq], .inr ⟨_, ho.trace_eq, not_isFrame_stream _ _ _⟩⟩
  | replyTaken _ ht _ => exact ⟨by simp [ht.st_eq], .inr ⟨_, ht.trace_eq, not_isFrame_inp _ _⟩⟩
  | replyFailed _ ht _ => exact ⟨by simp [ht.st_eq], .inr ⟨_, ht.trace_eq, not_isFrame_inp _ _⟩⟩
  | deassertSent hq _ => exact absurd hq hoff
  | deassertFailed hq _ _ => exact absurd hq hoff
  | speedSent _ ho => exact ⟨by simp [ho.st_eq], .inr ⟨_, ho.trace_eq, not_isFrame_speed _ _ _⟩⟩
  | speedFailed _ ho _ => exact ⟨by simp [ho.st_eq], .inr ⟨_, ho.trace_eq, not_isFrame_speed _ _ _⟩⟩

/-- Outside SPD the block's transaction leaves the speed record (R31). -/
theorem Transaction.leaves_speed {s t : State} (h : Transaction s t) (hspd : s.st.fsm ≠ .spd) :
    t.st.spd = s.st.spd := by
  cases h with
  | hold => rfl
  | handedBack _ => rfl
  | speedSent hq _ => exact absurd hq hspd
  | speedFailed hq _ _ => exact absurd hq hspd
  | replyTaken _ ht _ => simp [ht.st_eq]
  | replyFailed _ ht _ => simp [ht.st_eq]
  | _ _ ho => simp [ho.st_eq]

theorem Accepted.leaves_status {s t : State} (h : Accepted s t) :
    t.st.cs = s.st.cs ∧ t.st.spd = s.st.spd ∧ t.trace = s.trace := by
  cases h <;> exact ⟨rfl, rfl, rfl⟩

/-- Settles O47: without reset only the block's transaction can write the two records or issue a transfer. -/
theorem onlyCscTouchesChipSelect : Obligations.OnlyCscTouchesChipSelect := by
  intro s t new hr h hnew
  have hleaves : (s.st.fsm ≠ .csOn → s.st.fsm ≠ .csOff →
      t.st.cs = s.st.cs ∧ (t.trace = s.trace ∨ ∃ x, t.trace = s.trace ++ [x] ∧ ¬ x.IsFrame)) ∧
      (s.st.fsm ≠ .spd → t.st.spd = s.st.spd) := by
    obtain ⟨hreset, _⟩ | ho | ⟨_, ha⟩ | ⟨_, u, hu, ho⟩ := step_block_cases h
    · simp [hr] at hreset
    · exact ⟨fun _ _ => ⟨by rw [ho.st_eq], .inl ho.trace_eq⟩, fun _ => by rw [ho.st_eq]⟩
    · obtain ⟨hcs, hspd, htrace⟩ := ha.leaves_status
      exact ⟨fun _ _ => ⟨hcs, .inl htrace⟩, fun _ => hspd⟩
    · rw [ho.st_eq, ho.trace_eq]
      exact ⟨hu.leaves_chipSelect, hu.leaves_speed⟩
  refine ⟨fun hon hoff => ?_, hleaves.2⟩
  obtain ⟨hcs, htrace⟩ := hleaves.1 hon hoff
  refine ⟨hcs, fun sel r hx => ?_⟩
  obtain e | ⟨x, e, hframe⟩ := htrace <;> rw [hnew] at e
  · obtain rfl : new = [] := by simpa using e
    exact nomatch hx
  · obtain rfl : new = [x] := List.append_cancel_left e
    exact hframe ⟨sel, r, (List.mem_singleton.mp hx).symm⟩

/-! ### The select window of an exchange answered in full -/

/-- TX and RX of packet `k`, both answered in full: the far end has shifted the packet's wire bytes, and its reply is
read. -/
theorem runSteps_round_far {s u : State} {outs ins : Nat} (hm : s.BlockMoves) (hq : s.st.fsm = .tx)
    (hk : s.st.k < packetCount s.st.obuf.length) (ha : s.Answers (outs + 1) (ins + 1)) (hu : runSteps 2 s = .next u) :
    u.far = { ({ s.far with rx := [], uioOpen := false } : FarEnd).stream s.draws
      ((chunk s.st.obuf s.st.k).map rev8) with reply := [] } := by
  obtain ⟨_, _, ho, hout, ha'⟩ := ha.next_out
  obtain ⟨_, _, hi, hin, -⟩ := ha'.next_in
  have hrun := (runSteps_succ (step_tx_full hm hq hk ha.opened ho hout) 1).trans
    (runSteps_one (step_rx_full ⟨hm.1, stream_rx _ _ _⟩ rfl ha.opened hi hin (by simp)))
  cases hu.symm.trans hrun
  rfl

/-- The bytes that a newly asserted frame finds in the select window: those of a window still open (R247; log 13). -/
def FarEnd.openBytes (f : FarEnd) : Bytes := if f.selected then f.window else []

/-- `AfterPackets` with the select window: it holds the wire bytes of the first `k` packets, after those that an open
window held before, and no sequence has been completed. -/
structure AfterStreams (s : State) (out : Bytes) (cap : BitVec 32) (k : Nat) (t : State) : Prop where
  after : ∃ reply, AfterPackets s out cap reply k t
  selected : t.far.selected = true
  window : t.far.window = s.far.openBytes ++ (out.take (Config.payMax * k)).map rev8
  seqs : t.far.seqs = s.far.seqs

section Streams

variable {s : State} {out : Bytes} {cap : BitVec 32}

/-- Acceptance and CS_ON: the device is selected, and a window that was open goes on. -/
theorem State.Presents.afterStreams_zero (hp : s.Presents out cap)
    (ha : s.Answers (packetCount out.length + 2) (packetCount out.length)) :
    ∃ t, runSteps 2 s = .next t ∧ AfterStreams s out cap 0 t := by
  obtain ⟨t, ht, h⟩ := hp.afterPackets_zero ha fun _ => []
  obtain ⟨a, more, ho, hfull, -⟩ := ha.next_out
  have hon := step_csOn_full (s := ((s.setReq s.req.tail).loadExchange out cap).setFsm .csOn) hp.moves rfl ha.opened
    ho hfull
  have hfar : t.far = ({ s.far with rx := [], uioOpen := false } : FarEnd).assertSelect s.draws := by
    cases ht.symm.trans ((runSteps_succ hp.step_eq 1).trans (runSteps_one hon)); rfl
  rw [assertSelect_eq, setLevel_eq] at hfar
  exact ⟨t, ht, ⟨_, h⟩, by rw [hfar], by simp [hfar, FarEnd.openBytes], by simp [hfar]⟩

/-- One more packet: its wire bytes join the window. -/
theorem AfterStreams.next {k : Nat} {t : State} (h : AfterStreams s out cap k t) (hk : k < packetCount out.length) :
    ∃ u, runSteps 2 t = .next u ∧ AfterStreams s out cap (k + 1) u := by
  obtain ⟨reply, hafter⟩ := h.after
  obtain ⟨u, b, hu, hnext⟩ := hafter.next hk
  obtain ⟨m, hm⟩ := Nat.exists_eq_add_of_lt hk
  have ha := hafter.answers
  rw [show packetCount out.length - k = m + 1 by omega] at ha
  have hfar := runSteps_round_far hafter.moves (hafter.fsm_eq.trans (if_pos hk))
    (by rwa [hafter.k_eq, hafter.obuf_eq]) ha hu
  rw [hafter.k_eq, hafter.obuf_eq] at hfar
  refine ⟨u, hu, ⟨_, hnext⟩, by simp [hfar, h.selected], ?window, by simp [hfar, h.seqs]⟩
  case window => simp [hfar, h.selected, h.window, chunk, Nat.mul_succ, List.take_add]

/-- CS_OFF and RESP after the last packet: the window closes on all of `out`. -/
theorem AfterStreams.finish {t : State} (h : AfterStreams s out cap (packetCount out.length) t) :
    ∃ u, runSteps 2 t = .next u ∧ u.far.selected = false ∧
      u.far.seqs = s.far.seqs ++ [s.far.openBytes ++ out.map rev8] := by
  obtain ⟨reply, hafter⟩ := h.after
  obtain ⟨a, more, ho, ha, -⟩ := hafter.answers.next_out
  have hoff := step_csOff_full hafter.moves (hafter.fsm_eq.trans (if_neg (Nat.lt_irrefl _))) hafter.answers.opened ho ha
  refine ⟨_, (runSteps_succ hoff 1).trans (runSteps_one (step_resp_ready ?_ rfl hafter.ready)),
    deassertSelect_selected _, ?seqs⟩
  · exact ⟨hafter.moves.1, deassertSelect_rx _⟩
  case seqs =>
    have hwindow : t.far.window = s.far.openBytes ++ out.map rev8 := by
      rw [h.window, List.take_of_length_le (le_packetCount_mul _)]
    simp [deassertSelect_eq, setLevel_eq, h.selected, h.seqs, hwindow]

end Streams

/-- Settles O51: the packets one by one (`AfterStreams.next`), between the two frames. -/
theorem exchangeIsOneSpiSequence : Obligations.ExchangeIsOneSpiSequence := by
  intro s out cap hp ha
  obtain ⟨t0, hrun0, h0⟩ := hp.afterStreams_zero ha
  obtain ⟨t, hrun, h⟩ := runSteps_rounds h0 fun _ _ hk h => h.next hk
  obtain ⟨u, hrun', hsel, hseqs⟩ := h.finish
  have hsteps : 2 * packetCount out.length + 4 = 2 + (2 * packetCount out.length + 2) := by omega
  exact ⟨u, by rw [hsteps, runSteps_add hrun0, runSteps_add hrun, hrun'], hsel, hseqs⟩

/-! ### An exchange whatever the transport answers -/

/-- The OUT transfers that the exchange in progress still makes at most: the packets not yet sent and the frames. -/
def Block.sendsLeft (b : Block) : Nat :=
  match b.fsm with
  | .csOn => b.packets + 2
  | .tx => b.packets - b.k + 1
  | .rx => b.packets - b.k
  | .csOff => 1
  | .idle => 0
  | .spd => 0
  | .resp => 0

/-- The IN transfers that the exchange in progress still makes at most. -/
def Block.readsLeft (b : Block) : Nat :=
  match b.fsm with
  | .csOn => b.packets
  | .tx => b.packets - b.k
  | .rx => b.packets - b.k
  | .csOff => 0
  | .idle => 0
  | .spd => 0
  | .resp => 0

/-- Going on after CS_ON or after a reply, to TX or, with no packet left, to CS_OFF. -/
theorem Block.left_of_going_on {b : Block} (hq : b.fsm = if b.k < b.packets then .tx else .csOff) :
    b.sendsLeft = b.packets - b.k + 1 ∧ b.readsLeft = b.packets - b.k := by
  by_cases hk : b.k < b.packets
  · rw [if_pos hk] at hq
    simp [Block.sendsLeft, Block.readsLeft, hq]
  · rw [if_neg hk] at hq
    simp [Block.sendsLeft, Block.readsLeft, hq, Nat.sub_eq_zero_of_le (Nat.not_lt.mp hk)]

theorem Block.left_of_tx {b : Block} (hq : b.fsm = .tx) :
    b.sendsLeft = b.packets - b.k + 1 ∧ b.readsLeft = b.packets - b.k := by
  simp [Block.sendsLeft, Block.readsLeft, hq]

theorem Block.left_of_rx {b : Block} (hq : b.fsm = .rx) :
    b.sendsLeft = b.packets - b.k ∧ b.readsLeft = b.packets - b.k := by
  simp [Block.sendsLeft, Block.readsLeft, hq]

theorem Block.left_of_csOn {b : Block} (hq : b.fsm = .csOn) :
    b.sendsLeft = b.packets + 2 ∧ b.readsLeft = b.packets := by
  simp [Block.sendsLeft, Block.readsLeft, hq]

theorem Block.left_of_csOff {b : Block} (hq : b.fsm = .csOff) : b.sendsLeft = 1 ∧ b.readsLeft = 0 := by
  simp [Block.sendsLeft, Block.readsLeft, hq]

/-- The steps left to an exchange in progress, at most: its transfers, and the response. -/
def Block.stepsLeft (b : Block) : Nat := b.sendsLeft + b.readsLeft + 1

/-- The transport gives every transfer that the exchange in progress can still make some result. -/
def State.Answered (s : State) : Prop :=
  s.session.isSome = true ∨ (s.st.sendsLeft ≤ s.outs.length ∧ s.st.readsLeft ≤ s.ins.length)

theorem State.Answered.answerOut {s : State} (h : s.Answered) (hpos : 0 < s.st.sendsLeft) :
    ∃ a s0, s.answerOut = some (a, s0) := by
  unfold State.answerOut
  cases hs : s.session with
  | some c => exact ⟨_, _, rfl⟩
  | none =>
    obtain h | ⟨h, _⟩ := h
    · simp [hs] at h
    · cases ho : s.outs with
      | nil => rw [ho, List.length_nil] at h; omega
      | cons a more => exact ⟨_, _, rfl⟩

theorem State.Answered.answerIn {s : State} (h : s.Answered) (hpos : 0 < s.st.readsLeft) :
    ∃ a s0, s.answerIn = some (a, s0) := by
  unfold State.answerIn
  cases hs : s.session with
  | some c => exact ⟨_, _, rfl⟩
  | none =>
    obtain h | ⟨_, h⟩ := h
    · simp [hs] at h
    · cases hi : s.ins with
      | nil => rw [hi, List.length_nil] at h; omega
      | cons a more => exact ⟨_, _, rfl⟩

section Answered

variable {s s0 t : State} {a : Answer} {x : Transfer}

/-- One OUT answer used up, and one OUT transfer fewer to come. -/
theorem State.Answered.after_out (h : s.Answered) (ha : s.answerOut = some (a, s0))
    (hx : StepIssues s x s0.outs s.ins t) (hsends : t.st.sendsLeft < s.st.sendsLeft)
    (hreads : t.st.readsLeft ≤ s.st.readsLeft) : t.Answered := by
  rw [State.Answered, hx.ports.session_kept, hx.outs_eq, hx.ins_eq]
  obtain ⟨c, hs, _, _⟩ | ⟨hs, more, ho, rfl⟩ := answerOut_some ha
  · exact .inl (by simp [hs])
  · obtain h | ⟨ho', hi'⟩ := h
    · exact .inl h
    · rw [ho, List.length_cons] at ho'
      exact .inr ⟨by rw [setOuts_outs]; omega, by omega⟩

/-- One IN answer used up, and one IN transfer fewer to come. -/
theorem State.Answered.after_in (h : s.Answered) (ha : s.answerIn = some (a, s0))
    (hx : StepIssues s x s.outs s0.ins t) (hsends : t.st.sendsLeft ≤ s.st.sendsLeft)
    (hreads : t.st.readsLeft < s.st.readsLeft) : t.Answered := by
  rw [State.Answered, hx.ports.session_kept, hx.outs_eq, hx.ins_eq]
  obtain ⟨c, hs, _, _⟩ | ⟨hs, more, hi, rfl⟩ := answerIn_some ha
  · exact .inl (by simp [hs])
  · obtain h | ⟨ho', hi'⟩ := h
    · exact .inl h
    · rw [hi, List.length_cons] at hi'
      exact .inr ⟨by omega, by rw [setIns_ins]; omega⟩

end Answered

/-- The block of an exchange between its two frames: a packet is in progress, or the exchange is over, with every packet
done unless an error is recorded; the bytes kept are those of `k` full replies, up to `keep` (R165). -/
structure Block.Exchanging (b : Block) : Prop where
  phase : ((b.fsm = .tx ∨ b.fsm = .rx) ∧ b.k < b.packets) ∨ (b.fsm = .csOff ∧ (b.err = none → b.k = b.packets))
  acc_length : b.acc.length = min (keepCount b.cap b.obuf.length) (Config.payMax * b.k)

/-- Going on after CS_ON or after a reply. -/
theorem Block.Exchanging.of_going_on {b : Block} (hq : b.fsm = if b.k < b.packets then .tx else .csOff)
    (hk : b.k ≤ b.packets) (hacc : b.acc.length = min (keepCount b.cap b.obuf.length) (Config.payMax * b.k)) :
    b.Exchanging := by
  refine ⟨?_, hacc⟩
  by_cases hlt : b.k < b.packets
  · exact .inl ⟨.inl (hq.trans (if_pos hlt)), hlt⟩
  · exact .inr ⟨hq.trans (if_neg hlt), fun _ => by omega⟩

/-- An error recorded on the way to CS_OFF. -/
theorem Block.Exchanging.of_error {b : Block} {e : Error} (hq : b.fsm = .csOff) (herr : b.err = some e)
    (hacc : b.acc.length = min (keepCount b.cap b.obuf.length) (Config.payMax * b.k)) : b.Exchanging :=
  ⟨.inr ⟨hq, fun h => absurd (herr.symm.trans h) (by simp)⟩, hacc⟩

/-- `k` full replies fill what `keep` allows once `k` is the number of packets. -/
theorem Block.Exchanging.acc_length_of_success {b : Block} (h : b.Exchanging) (hq : b.fsm = .csOff)
    (herr : b.err = none) : b.acc.length = keepCount b.cap b.obuf.length := by
  obtain ⟨hq', _⟩ | ⟨_, hk⟩ := h.phase
  · simp [hq] at hq'
  have hlen : b.obuf.length ≤ Config.payMax * b.packets := le_packetCount_mul _
  rw [h.acc_length, hk herr]
  unfold keepCount
  omega

/-- A full reply to packet `k` adds its bytes as far as `keep` allows (R161, R165). -/
theorem accumulate_reply_length {keep k : Nat} {obuf acc reply : Bytes} (hkeep : keep ≤ obuf.length)
    (hk : k < packetCount obuf.length) (hacc : acc.length = min keep (Config.payMax * k))
    (hreply : reply.length = payloadCount obuf k) :
    (accumulate keep acc reply).length = min keep (Config.payMax * (k + 1)) := by
  have hstart := (lt_packetCount_iff obuf.length k).mp hk
  rw [payloadCount_eq, chunk_length] at hreply
  rw [accumulate_length, hacc, hreply, Nat.mul_succ]
  omega

/-- `t` is what the exchange accepted in `s` has reached between its two frames, the assert frame having had the result
`first` and `middle` being the transfers since. -/
structure Underway (s : State) (first : OutResult) (middle : List Transfer) (t : State) : Prop where
  moves : t.BlockMoves
  ready : t.rspReady = true
  rsps_eq : t.rsps = s.rsps
  obuf_eq : t.st.obuf = s.st.obuf
  cap_eq : t.st.cap = s.st.cap
  trace_eq : t.trace = s.trace ++ ([.out (csframe true) first] ++ middle)
  no_frame : ∀ x ∈ middle, ¬ x.IsFrame
  answered : t.Answered
  exchanging : t.st.Exchanging

section Underway

variable {s t u : State} {first : OutResult} {middle : List Transfer}

/-- One more transfer, which is no frame. -/
theorem Underway.issued (h : Underway s first middle t) {x : Transfer} {outs ins : List Answer}
    (hx : StepIssues t x outs ins u) (hframe : ¬ x.IsFrame) (hobuf : u.st.obuf = t.st.obuf) (hcap : u.st.cap = t.st.cap)
    (hex : u.st.Exchanging) (hans : u.Answered) : Underway s first (middle ++ [x]) u where
  moves := hx.moves h.moves
  ready := hx.ports.rspReady_kept.trans h.ready
  rsps_eq := hx.ports.rsps_kept.trans h.rsps_eq
  obuf_eq := hobuf.trans h.obuf_eq
  cap_eq := hcap.trans h.cap_eq
  trace_eq := by simp [hx.trace_eq, h.trace_eq]
  no_frame := by
    intro y hy
    obtain hy | hy := List.mem_append.mp hy
    · exact h.no_frame y hy
    · rwa [List.mem_singleton.mp hy]
  answered := hans
  exchanging := hex

/-- TX: to RX, or to CS_OFF with an error (R163). -/
theorem Underway.next_tx (h : Underway s first middle t) (hq : t.st.fsm = .tx) (hk : t.st.k < t.st.packets) :
    ∃ u x, step t = .next u ∧ Underway s first (middle ++ [x]) u ∧ u.st.stepsLeft < t.st.stepsLeft := by
  obtain ⟨hsends, hreads⟩ := Block.left_of_tx hq
  obtain ⟨a, s0, ha⟩ := h.answered.answerOut (by omega)
  obtain ⟨u, hu, hst⟩ := step_tx_answered h.moves hq hk rfl ha
  have hblock : u.st.obuf = t.st.obuf ∧ u.st.cap = t.st.cap ∧ u.st.Exchanging ∧
      u.st.sendsLeft < t.st.sendsLeft ∧ u.st.readsLeft ≤ t.st.readsLeft := by
    rw [hsends, hreads, hst]
    have hacc := h.exchanging.acc_length
    split
    · exact ⟨rfl, rfl, ⟨.inl ⟨.inr rfl, hk⟩, hacc⟩, Nat.lt_succ_self _, le_rfl⟩
    · exact ⟨rfl, rfl, .of_error rfl (firstError_eq _ _) hacc, Nat.succ_lt_succ (Nat.sub_pos_of_lt hk), Nat.zero_le _⟩
  obtain ⟨hobuf, hcap, hex, hsends', hreads'⟩ := hblock
  exact ⟨u, _, hu.step_eq, h.issued hu (not_isFrame_stream _ _ _) hobuf hcap hex
    (h.answered.after_out ha hu hsends' hreads'), by unfold Block.stepsLeft; omega⟩

/-- RX: to TX, or to CS_OFF after the last packet or with an error (R164). -/
theorem Underway.next_rx (h : Underway s first middle t) (hq : t.st.fsm = .rx) (hk : t.st.k < t.st.packets) :
    ∃ u x, step t = .next u ∧ Underway s first (middle ++ [x]) u ∧ u.st.stepsLeft < t.st.stepsLeft := by
  obtain ⟨hsends, hreads⟩ := Block.left_of_rx hq
  obtain ⟨a, s0, ha⟩ := h.answered.answerIn (by omega)
  obtain ⟨u, r, hu, hst⟩ := step_rx_answered h.moves hq ha
  have hblock : u.st.obuf = t.st.obuf ∧ u.st.cap = t.st.cap ∧ u.st.Exchanging ∧
      u.st.sendsLeft ≤ t.st.sendsLeft ∧ u.st.readsLeft < t.st.readsLeft := by
    rw [hsends, hreads]
    have hacc := h.exchanging.acc_length
    obtain ⟨b, hb, e⟩ | ⟨err, e⟩ := hst
    · obtain ⟨hs, hrd⟩ := Block.left_of_going_on (b := u.st) (by rw [e]; rfl)
      rw [hs, hrd, e]
      refine ⟨rfl, rfl, .of_going_on rfl hk (accumulate_reply_length (Nat.min_le_right _ _) hk hacc hb), ?_, ?_⟩
      · change t.st.packets - (t.st.k + 1) + 1 ≤ t.st.packets - t.st.k
        omega
      · change t.st.packets - (t.st.k + 1) < t.st.packets - t.st.k
        omega
    · rw [e]
      exact ⟨rfl, rfl, .of_error rfl (firstError_eq _ _) hacc, Nat.sub_pos_of_lt hk, Nat.sub_pos_of_lt hk⟩
  obtain ⟨hobuf, hcap, hex, hsends', hreads'⟩ := hblock
  exact ⟨u, _, hu.step_eq, h.issued hu (not_isFrame_inp _ _) hobuf hcap hex
    (h.answered.after_in ha hu hsends' hreads'), by unfold Block.stepsLeft; omega⟩

/-- An exchange underway comes to CS_OFF, with two steps left for CS_OFF and RESP. -/
theorem Underway.reaches_csOff (h : Underway s first middle t) :
    ∃ n u middle', runSteps n t = .next u ∧ Underway s first middle' u ∧ u.st.fsm = .csOff ∧
      n + 2 ≤ t.st.stepsLeft := by
  induction hn : t.st.stepsLeft using Nat.strong_induction_on generalizing t middle with
  | _ left ih =>
    subst hn
    obtain ⟨hq, hk⟩ | ⟨hq, _⟩ := h.exchanging.phase
    · have hnext : ∃ u x, step t = .next u ∧ Underway s first (middle ++ [x]) u ∧
          u.st.stepsLeft < t.st.stepsLeft := hq.elim (h.next_tx · hk) (h.next_rx · hk)
      obtain ⟨u, x, hstep, hu, hless⟩ := hnext
      obtain ⟨n, v, middle', hrun, hv, hoff, hle⟩ := ih _ hless hu rfl
      exact ⟨n + 1, v, middle', (runSteps_succ hstep n).trans hrun, hv, hoff, by omega⟩
    · obtain ⟨hsends, hreads⟩ := Block.left_of_csOff hq
      exact ⟨0, t, middle, rfl, h, hq, by unfold Block.stepsLeft; omega⟩

/-- CS_ON of an exchange just accepted: to TX, or to CS_OFF with no packet to send or with an error (R143, R162). -/
theorem underway_of_csOn (hm : s.BlockMoves) (hready : s.rspReady = true) (hq : s.st.fsm = .csOn) (hk : s.st.k = 0)
    (hacc : s.st.acc = []) (hans : s.Answered) :
    ∃ u first, step s = .next u ∧ Underway s first [] u ∧ u.st.stepsLeft < s.st.stepsLeft := by
  obtain ⟨hsends, hreads⟩ := Block.left_of_csOn hq
  obtain ⟨a, s0, ha⟩ := hans.answerOut (by omega)
  obtain ⟨u, hu, hst, -⟩ := step_csOn_answered hm hq ha
  have hacc' : s.st.acc.length = min (keepCount s.st.cap s.st.obuf.length) (Config.payMax * s.st.k) := by
    simp [hacc, hk]
  have hblock : u.st.obuf = s.st.obuf ∧ u.st.cap = s.st.cap ∧ u.st.Exchanging ∧
      u.st.sendsLeft < s.st.sendsLeft ∧ u.st.readsLeft ≤ s.st.readsLeft := by
    rw [hsends, hreads]
    by_cases hr : outResult a 4 = .done 4
    · rw [if_pos hr, ← hk] at hst
      obtain ⟨hs, hrd⟩ := Block.left_of_going_on (b := u.st) (by rw [hst]; rfl)
      rw [hs, hrd, hst]
      refine ⟨rfl, rfl, .of_going_on rfl (hk ▸ Nat.zero_le _) hacc', ?_, Nat.sub_le _ _⟩
      exact Nat.lt_succ_of_le (Nat.succ_le_succ (Nat.sub_le _ _))
    · rw [if_neg hr] at hst
      rw [hst]
      exact ⟨rfl, rfl, .of_error rfl (firstError_eq _ _) hacc', Nat.succ_lt_succ (Nat.succ_pos _), Nat.zero_le _⟩
  obtain ⟨hobuf, hcap, hex, hsends', hreads'⟩ := hblock
  exact ⟨u, _, hu.step_eq, {
    moves := hu.moves hm
    ready := hu.ports.rspReady_kept.trans hready
    rsps_eq := hu.ports.rsps_kept
    obuf_eq := hobuf
    cap_eq := hcap
    trace_eq := hu.trace_eq
    no_frame := by simp
    answered := hans.after_out ha hu hsends' hreads'
    exchanging := hex }, by unfold Block.stepsLeft; omega⟩

/-- CS_OFF and RESP: the deassert frame is sent whatever went before, and one response is handed back (R144, R166). -/
theorem Underway.finish (h : Underway s first middle t) (hq : t.st.fsm = .csOff) :
    ∃ u last rsp, runSteps 2 t = .next u ∧ u.st.fsm = .idle ∧ u.rsps = s.rsps ++ [rsp] ∧
      u.trace = s.trace ++ ([.out (csframe true) first] ++ middle ++ [.out (csframe false) last]) ∧
      u.st.cs = (if last = .done 3 then .deasserted else .unknown) ∧
      ((∃ e, rsp = .err e) ∨ ∃ data, rsp = .okBytes data ∧ data.length = min s.st.cap.toNat s.st.obuf.length) := by
  obtain ⟨a, s0, ha⟩ := h.answered.answerOut (by rw [(Block.left_of_csOff hq).1]; exact Nat.one_pos)
  obtain ⟨v, hv, hst, -⟩ := step_csOff_answered h.moves hq ha
  have hready : v.rspReady = true := hv.ports.rspReady_kept.trans h.ready
  have hblock : v.st.fsm = .resp ∧ v.st.cs = (if outResult a 3 = .done 3 then .deasserted else .unknown) := by
    rw [hst]; split <;> exact ⟨rfl, rfl⟩
  obtain ⟨hresp, hcs⟩ := hblock
  refine ⟨v.handBack, outResult a 3, v.st.rsp,
    (runSteps_succ hv.step_eq 1).trans (runSteps_one (step_resp_ready (hv.moves h.moves) hresp hready)),
    rfl, ?rsps, ?trace, hcs, ?rsp⟩
  case rsps => rw [handBack_rsps, hv.ports.rsps_kept, h.rsps_eq]
  case trace => simp [hv.trace_eq, h.trace_eq]
  case rsp =>
    have hlen := h.exchanging.acc_length_of_success hq
    rw [h.obuf_eq, h.cap_eq] at hlen
    rw [hst]
    split
    · cases herr : t.st.err with
      | none => exact .inr ⟨t.st.acc, rfl, hlen herr⟩
      | some e => exact .inl ⟨e, rfl⟩
    · exact .inl ⟨_, by rw [firstError_eq]; rfl⟩

end Underway

/-- Settles O52: accepted, the assert frame (`underway_of_csOn`), the packets as far as they go
(`Underway.reaches_csOff`), and the deassert frame with the response (`Underway.finish`). -/
theorem exchangeAlwaysEnds : Obligations.ExchangeAlwaysEnds := by
  intro s out cap hp ha
  have hleft := Block.left_of_csOn (b := (((s.setReq s.req.tail).loadExchange out cap).setFsm .csOn).st) rfl
  obtain ⟨t0, first, hstep0, h0, hless⟩ :=
    underway_of_csOn (s := ((s.setReq s.req.tail).loadExchange out cap).setFsm .csOn) hp.moves hp.ready rfl rfl rfl ha
  obtain ⟨n, t, middle, hrun, h, hq, hn⟩ := h0.reaches_csOff
  obtain ⟨u, last, rsp, hrun', hidle, hrsps, htrace, hcs, hrsp⟩ := h.finish hq
  refine ⟨1 + (1 + (n + 2)), u, first, last, middle, rsp, ?steps, ?run, hidle, hrsps, htrace,
    fun sel r hx => h.no_frame _ hx ⟨sel, r, rfl⟩, hcs, hrsp⟩
  case steps =>
    have hpackets : Block.packets (((s.setReq s.req.tail).loadExchange out cap).setFsm .csOn).st =
      packetCount out.length := rfl
    rw [hpackets] at hleft
    unfold Block.stepsLeft at hn hless
    omega
  case run =>
    rw [runSteps_add (runSteps_one hp.step_eq), runSteps_add (runSteps_one hstep0), runSteps_add hrun, hrun']

end Sys2Proof.Machine
end

section
/-! PROOFS of 43_transceiver.md: accepting XCHG (R160), the stream packet of TX (R163), the reply of RX (R164, R165), the
response of RESP (R168), and the counts of an exchange (R170). -/

namespace Sys2Proof.Machine

/-- Settles O17: taken in IDLE. -/
theorem xchgIsAccepted : Obligations.XchgIsAccepted := fun _ _ _ hs => acceptInIdle_idle hs

/-! ### TX -/

/-- A stream packet delivered whole is run in the same step: the far end holds a reply byte for each payload byte
(R58, R163; log 22). -/
theorem step_tx_reply_length {s s0 t : State} {a : Answer} (hm : s.BlockMoves) (hq : s.st.fsm = .tx)
    (hk : s.st.k < packetCount s.st.obuf.length) (ha : s.answerOut = some (a, s0))
    (hr : outResult a (streamPacket s.st.obuf s.st.k).length = .done (streamPacket s.st.obuf s.st.k).length)
    (ht : step s = .next t) : t.far.reply.length = (chunk s.st.obuf s.st.k).length := by
  obtain ⟨s1, hx⟩ := xferOut_of_answer (p := streamPacket s.st.obuf s.st.k) ha
  have hrx : (blockStep s).far.rx = streamPacket s.st.obuf s.st.k := by
    simp only [blockStep, hq, txStep, hx, if_pos hr, setFsm_far, ((xferOut_some hx).delivered hr).1]
  rw [transferRunsItsPacket s _ _ hm (by simp [hq]) hrx (by simp [streamPacket]) (decode_streamPacket hk)] at ht
  have hrun := execSpiStream_of_length (ws := (chunk s.st.obuf s.st.k).map rev8)
    (by simpa using chunk_length_pos hk) (by simpa using chunk_length_le _ _)
  cases (hrun _).symm.trans ht
  exact (stream_reply_length _ _ _).trans (List.length_map _)

/-- Settles O21: the step of `step_tx_answered`, with the reply of `step_tx_reply_length`. -/
theorem txSendsStreamPacket : Obligations.TxSendsStreamPacket := by
  intro s s0 a hm hq hk ha ws r
  have hlt : s.st.k < packetCount s.st.obuf.length := (lt_packetCount_iff _ _).mpr hk
  have hws : ws.length = (chunk s.st.obuf s.st.k).length := List.length_map _
  obtain ⟨t, ht, hst⟩ := step_tx_answered (p := 0xA8#8 :: ws) hm hq hlt rfl ha
  refine ⟨t, ht.step_eq, ht.ports, ht.outs_eq, ht.ins_eq, ht.trace_eq, fun hr => ⟨?sent, ?held⟩, fun hr => ?failed⟩
  case sent => exact hst.trans (if_pos hr)
  case held => exact (step_tx_reply_length hm hq hlt ha hr ht.step_eq).trans hws.symm
  case failed => exact (hst.trans (if_neg hr)).trans (by rw [firstError_eq]; rfl)

/-! ### RX -/

section Reply

variable {s s0 s1 : State} {a : Answer} {n : Nat} {r : InResult}

theorem isFull_data_iff {b : Bytes} : (InResult.data b).isFull n = true ↔ b.length = n := decide_eq_true_iff

theorem not_isFull_data_iff {b : Bytes} : (InResult.data b).isFull n = false ↔ b.length ≠ n :=
  decide_eq_false_iff_not

/-- A full reply is accumulated, and the block goes on to the next packet or to CS_OFF (R164, R165). -/
theorem rxStep_of_full {b : Bytes} (hn : payloadCount s.st.obuf s.st.k = n) (hx : s.xferIn n = some (.data b, s1))
    (hb : b.length = n) :
    rxStep s = (s1.takeReply b).setFsm (if s.st.k + 1 < packetCount s.st.obuf.length then .tx else .csOff) := by
  subst hn
  simp only [rxStep, hx, if_pos hb]

/-- Any other result records its error on the way to CS_OFF (R164). -/
theorem rxStep_of_not_full (hn : payloadCount s.st.obuf s.st.k = n) (hx : s.xferIn n = some (r, s1))
    (hr : r.isFull n = false) : rxStep s = s1.abort (errOfIn r) .csOff := by
  subst hn
  cases r with
  | data b => simp only [rxStep, hx, if_neg (not_isFull_data_iff.mp hr)]
  | fail c => simp only [rxStep, hx]
  | timedOut => simp only [rxStep, hx]

/-- After its transfer RX changes the block only. -/
theorem rxStep_onlyBlock (hn : payloadCount s.st.obuf s.st.k = n) (hx : s.xferIn n = some (r, s1)) :
    OnlyBlock s1 (rxStep s) := by
  cases hr : r.isFull n with
  | false => rw [rxStep_of_not_full hn hx hr]; rfl
  | true =>
    cases r with
    | data b => rw [rxStep_of_full hn hx (isFull_data_iff.mp hr)]; rfl
    | fail c => cases hr
    | timedOut => cases hr

/-- The step of RX is its transaction alone: an IN transfer delivers nothing to the far end. -/
theorem step_rx_issues (hm : s.BlockMoves) (hq : s.st.fsm = .rx) (hn : payloadCount s.st.obuf s.st.k = n)
    (ha : s.answerIn = some (a, s0)) (hx : s.xferIn n = some (r, s1)) :
    StepIssues s (.inp n r) s.outs s0.ins (rxStep s) := by
  have ht := xferIn_some hx
  have hv := rxStep_onlyBlock hn hx
  have hrx : (rxStep s).far.rx = [] := by rw [hv]; exact ht.far_rx.trans hm.2
  refine ⟨?step, ht.portsKept.trans hv.portsKept, ?outs, ?ins, ?trace, hrx⟩
  case step =>
    rw [step_busy hm (by simp [hq])]
    simp only [blockStep, hq, runDelivered_empty hrx]
  case outs => rw [hv]; exact ht.outs_eq
  case ins => rw [hv]; exact (ht.of_answer ha).2
  case trace => rw [hv]; exact ht.trace_eq

/-- The block after a reply that was not full: the error recorded, unless there was one already (R164, R213). -/
theorem rxStep_st_of_not_full (hn : payloadCount s.st.obuf s.st.k = n) (hx : s.xferIn n = some (r, s1))
    (hr : r.isFull n = false) :
    (rxStep s).st = { s.st with err := some (s.st.err.getD (errOfIn r)), fsm := .csOff } := by
  rw [rxStep_of_not_full hn hx hr, ← firstError_eq, ← (xferIn_some hx).st_eq]
  rfl

/-- The block after a full reply: R165's `accumulate` in closed form, and `n` by the place of the next packet. -/
theorem rxStep_st_of_full {b : Bytes} (hn : payloadCount s.st.obuf s.st.k = n)
    (hx : s.xferIn n = some (.data b, s1)) (hb : b.length = n) :
    (rxStep s).st = { s.st with
      acc := s.st.acc ++ (b.take (keepCount s.st.cap s.st.obuf.length - s.st.acc.length)).map rev8
      k := s.st.k + 1
      fsm := if Config.payMax * (s.st.k + 1) < s.st.obuf.length then .tx else .csOff } := by
  rw [rxStep_of_full hn hx hb, ← accumulate_eq, ← (xferIn_some hx).st_eq]
  simp only [lt_packetCount_iff]
  rfl

end Reply

/-- Settles O22: the one IN transfer of `step_rx_issues`, and the block after each of its results. -/
theorem rxTakesReply : Obligations.RxTakesReply := by
  intro s s0 a hm hq ha n r
  have hn : payloadCount s.st.obuf s.st.k = n := (payloadCount_eq _ _).trans (chunk_length _ _)
  obtain ⟨s1, hx⟩ : ∃ s1, s.xferIn n = some (r, s1) := xferIn_of_answer ha
  have ht := xferIn_some hx
  have hfar : (rxStep s).far = s1.far := by rw [rxStep_onlyBlock hn hx]
  have hstep := step_rx_issues hm hq hn ha hx
  refine ⟨rxStep s, hstep.step_eq, hstep.ports, hstep.outs_eq, hstep.ins_eq, hstep.trace_eq, hfar ▸ ht.far_eq,
    fun b hr hb => ⟨?used, ?full⟩, fun b hr hb => ⟨?less, ?short⟩, fun c hr => ?failed, fun hr => ?timedOut⟩
  case used => rw [hfar, (ht.taken (hr ▸ isFull_data_iff.mpr hb)).1]
  case full => exact rxStep_st_of_full hn (hr ▸ hx) hb
  case less => exact Nat.lt_of_le_of_ne (inResult_data_le hr) hb
  case short => exact rxStep_st_of_not_full hn (hr ▸ hx) (not_isFull_data_iff.mpr hb)
  case failed => exact rxStep_st_of_not_full hn (hr ▸ hx) rfl
  case timedOut => exact rxStep_st_of_not_full hn (hr ▸ hx) rfl

/-! ### RESP -/

/-- Settles O24: handed back to a requester that is ready, held for one that is not. -/
theorem respHandsBackResponse : Obligations.RespHandsBackResponse := by
  intro s hm hq
  refine ⟨fun hready => ?taken, fun hbusy => ?held⟩
  case taken => exact step_resp_ready hm hq hready
  case held => exact step_hold hm (by simp [hq]) (by simp [blockStep, hq, respStep, hbusy])

/-! ### The counts of an exchange -/

/-- The bytes sent by an OUT transfer. -/
def Transfer.sentCount? : Transfer → Option Nat
  | .out p _ => some p.length
  | .inp _ _ => none

/-- The bytes asked for by an IN transfer. -/
def Transfer.askedCount? : Transfer → Option Nat
  | .inp m _ => some m
  | .out _ _ => none

/-- The bytes received by an IN transfer that has not failed. -/
def Transfer.receivedCount? : Transfer → Option Nat
  | .inp _ (.data b) => some b.length
  | _ => none

section Counts

variable (out : Bytes) (reply : Nat → Bytes)

/-- What an exchange lists of a count that every round of TX and RX has once: one entry for each packet, between the
entries of the two frames. -/
theorem exchangeTransfers_filterMap {f : Transfer → Option Nat} {g : Nat → Nat}
    (hf : ∀ k, k < packetCount out.length → [Transfer.out (streamPacket out k) (.done (streamPacket out k).length),
      .inp (payloadCount out k) (.data (reply k))].filterMap f = [g k]) :
    (exchangeTransfers out reply).filterMap f =
      [Transfer.out (csframe true) (.done 4)].filterMap f ++ (List.range (packetCount out.length)).map g ++
        [Transfer.out (csframe false) (.done 3)].filterMap f := by
  have hrounds : (roundTransfers out reply (packetCount out.length)).filterMap f =
      (List.range (packetCount out.length)).map g := by
    rw [roundTransfers, List.filterMap_flatMap, List.map_eq_flatMap]
    exact List.flatMap_congr fun k hk => hf k (List.mem_range.mp hk)
  rw [exchangeTransfers_eq, ← List.singleton_append, List.filterMap_append, List.filterMap_append, hrounds]

/-- What is sent are the packets of the tiling, between the two frames. -/
theorem exchangeTransfers_sent :
    (exchangeTransfers out reply).filterMap Transfer.sentCount? = 4 :: (tile out).map List.length ++ [3] := by
  rw [tile, List.map_map]
  exact exchangeTransfers_filterMap out reply fun k _ => rfl

/-- What is asked for are the payloads of the tiling's packets. -/
theorem exchangeTransfers_asked :
    (exchangeTransfers out reply).filterMap Transfer.askedCount? = (tile out).map fun p => p.length - 1 := by
  rw [tile, List.map_map]
  exact (exchangeTransfers_filterMap out reply fun k _ => rfl).trans (List.append_nil _)

/-- Replies as long as asked are as long as those payloads. -/
theorem exchangeTransfers_received
    (hlen : ∀ k, k < packetCount out.length → (reply k).length = payloadCount out k) :
    (exchangeTransfers out reply).filterMap Transfer.receivedCount? = (tile out).map fun p => p.length - 1 := by
  rw [tile, List.map_map]
  exact (exchangeTransfers_filterMap out reply (f := Transfer.receivedCount?) (g := payloadCount out)
    fun k hk => congrArg List.singleton (hlen k hk)).trans (List.append_nil _)

end Counts

/-- Settles O54: each list of counts is one of the tiling's, whose sums are the counting laws of R124. -/
theorem exchangeCounts : Obligations.ExchangeCounts := by
  intro out reply hlen
  refine ⟨(congrArg List.length (exchangeTransfers_sent out reply)).trans ?outs,
    (congrArg List.length (exchangeTransfers_asked out reply)).trans ?ins,
    (congrArg List.sum (exchangeTransfers_sent out reply)).trans ?sent,
    (congrArg List.sum (exchangeTransfers_asked out reply)).trans (tile_payload_sum out),
    (congrArg List.sum (exchangeTransfers_received out reply hlen)).trans (tile_payload_sum out)⟩
  case outs => simp
  case ins => simp
  case sent =>
    simp only [List.cons_append, List.sum_cons, List.sum_append, List.sum_nil, tile_total_sum, tile_length]
    omega

end Sys2Proof.Machine
end

section
/-! PROOFS of 44_bus_config.md: the speed packet at the far end (R202), the request SPEED and its step in SPD (R200), and
what may change the far end's speed (R202, R241, R248). -/

namespace Sys2Proof.Machine

/-- Settles O38. -/
theorem setSpeedSetsSpeedInForce : Obligations.SetSpeedSetsSpeedInForce :=
  ⟨fun _ _ _ => rfl, fun _ _ _ h => by simp only [FarEnd.speedInForce, h], rfl⟩

/-! ### SPEED and its step in SPD -/

/-- SPD with an answer: a full result is run by the far end in the same step (R200, R202; log 22). -/
theorem step_spd_answered {s s0 : State} {a : Answer} {mode : BitVec 2} {dbl : Bool} (hm : s.BlockMoves)
    (hq : s.st.fsm = .spd) (hp : s.st.preq = (mode, dbl)) (ha : s.answerOut = some (a, s0)) :
    ∃ t, StepIssues s (.out (speedPacket mode dbl) (outResult a 3)) s0.outs s.ins t ∧
      t.st = (if outResult a 3 = .done 3 then { s.st with spd := some (mode, dbl), rsp := .okBytes [], fsm := .resp }
        else
          { s.st with
            spd := none
            err := firstError s.st.err (errOfOut (outResult a 3))
            rsp := exchangeResponse (firstError s.st.err (errOfOut (outResult a 3))) []
            fsm := .resp }) ∧
      (outResult a 3 = .done 3 → t.far.speed = .set mode dbl) := by
  obtain ⟨hnone, _⟩ | ⟨r, s1, ho, e⟩ := spdStep_cases s
  · simp [ha] at hnone
  obtain ⟨rfl, -⟩ := ho.of_answer ha
  simp only [hp, speedPacket_length] at ho e
  obtain ⟨t, ht, hst, hrun⟩ := ho.stepIssues hm (by simp [hq]) ha (decode_speedPacket mode dbl)
    (by simp only [blockStep, hq, e]; rfl) (by split <;> rfl)
  refine ⟨t, ht, ?st, fun hr => ?speed⟩
  case st => rw [hst, ← ho.st_eq]; split <;> rfl
  case speed => cases hrun hr; rfl

/-- Settles O18: taken in IDLE, and the step of `step_spd_answered`. -/
theorem speedSendsOnePacket : Obligations.SpeedSendsOnePacket := by
  refine ⟨fun mode dbl s => ⟨fun hs => acceptInIdle_idle hs, rfl⟩, ?_⟩
  intro s s0 a mode dbl hm hq hp ha
  obtain ⟨t, ht, hst, hspeed⟩ := step_spd_answered hm hq hp ha
  refine ⟨t, ht.step_eq, ht.ports, ht.outs_eq, ht.ins_eq, ht.trace_eq, fun hr => ⟨?sent, hspeed hr⟩, fun hr => ?failed⟩
  case sent => rw [hst, if_pos hr]
  case failed => rw [hst, if_neg hr, firstError_eq]; rfl

/-! ### What the speed packet is -/

theorem speedPacket_inj {mode mode' : BitVec 2} {dbl dbl' : Bool} (h : speedPacket mode dbl = speedPacket mode' dbl') :
    (mode, dbl) = (mode', dbl') := by
  have hd := congrArg (fun p => decode (.packet p)) h
  simp only [decode_speedPacket] at hd
  cases hd
  rfl

theorem streamPacket_ne_speedPacket (x : Bytes) (k : Nat) (mode : BitVec 2) (dbl : Bool) :
    streamPacket x k ≠ speedPacket mode dbl := fun h =>
  have hop : some Config.opSpiStream = some Config.opI2cStream := congrArg List.head? h
  absurd hop (by decide)

/-- Only a speed packet is decoded as one (R86, R92). -/
theorem eq_speedPacket_of_decode {p : Bytes} {mode : BitVec 2} {dbl : Bool}
    (h : decode (.packet p) = .ok (.setSpeed mode dbl)) : p = speedPacket mode dbl :=
  (Code.packet.inj (decodedCodeIsTheEncoding _ _ h).2).symm

/-- The block sends a speed packet in SPD only, and there that of the SPEED in progress (R200). -/
theorem Block.speeding_of_outPacket {b : Block} {mode : BitVec 2} {dbl : Bool}
    (h : b.outPacket = some (speedPacket mode dbl)) : b.fsm = .spd ∧ b.preq = (mode, dbl) := by
  cases hq : b.fsm <;> simp only [Block.outPacket, hq] at h
  case csOn => exact absurd (Option.some.inj h).symm (speedPacket_ne_csframe _ _ _)
  case tx => exact absurd (Option.some.inj h) (streamPacket_ne_speedPacket _ _ _ _)
  case csOff => exact absurd (Option.some.inj h).symm (speedPacket_ne_csframe _ _ _)
  case spd => exact ⟨rfl, speedPacket_inj (Option.some.inj h)⟩
  all_goals cases h

/-! ### What may change the far end's speed -/

@[simp] theorem assertSelect_speed (d : Nat) (f : FarEnd) : (f.assertSelect d).speed = f.speed := by
  rw [assertSelect_eq, setLevel_speed]

@[simp] theorem deassertSelect_speed (f : FarEnd) : f.deassertSelect.speed = f.speed := by
  rw [deassertSelect_eq, setLevel_speed]

/-- The speed of `g` is that of `f`, or that of `p`, which is then a speed packet. -/
def SpeedFrom (p : Bytes) (f g : FarEnd) : Prop :=
  g.speed = f.speed ∨ ∃ mode dbl, p = speedPacket mode dbl ∧ g.speed = .set mode dbl

theorem runCode_packet_speed {p : Bytes} {s t : State} (h : runCode (.packet p) s = .next t) :
    SpeedFrom p s.far t.far := by
  cases hd : decode (.packet p) with
  | error why => simp [runCode, hd] at h
  | ok i =>
    rw [runCode_of_decode hd] at h
    obtain ⟨ws, rfl, -, hpos, hmax⟩ | ⟨rfl, -⟩ | ⟨rfl, -⟩ | ⟨mode, dbl, rfl, -⟩ := decode_packet_cases hd
    · cases (execSpiStream_of_length hpos hmax s).symm.trans h
      exact .inl (stream_speed _ _ _)
    · cases h; exact .inl (assertSelect_speed _ _)
    · cases h; exact .inl (deassertSelect_speed _)
    · cases h; exact .inr ⟨mode, dbl, eq_speedPacket_of_decode hd, rfl⟩

theorem runCode_subCommand_speed {b : Byte} {s t : State} (h : runCode (.subCommand b) s = .next t) :
    t.far.speed = s.far.speed := by
  cases hd : decode (.subCommand b) with
  | error why => simp [runCode, hd] at h
  | ok i =>
    rw [runCode_of_decode hd] at h
    obtain ⟨v, rfl⟩ | ⟨v, rfl⟩ | rfl := decode_subCommand_cases hd
    · cases h; exact driveLines_speed _ _
    · cases h; exact setDirs_speed _ _ _
    · cases hx : s.far.rx with
      | nil => cases (execUioStmEnd_of_empty hx).symm.trans h; rfl
      | cons b' more => cases (execUioStmEnd_of_more hx).symm.trans h

/-- Running what waits at the far end can set the speed only from a whole packet, not from within an IO stream. -/
theorem runDelivered_speed {s t : State} (h : runDelivered s = .next t) :
    t.far.speed = s.far.speed ∨ (s.far.uioOpen = false ∧ SpeedFrom s.far.rx s.far t.far) := by
  cases hx : s.far.rx with
  | nil => cases (runDelivered_empty hx).symm.trans h; exact .inl rfl
  | cons b more =>
    cases hu : s.far.uioOpen with
    | true =>
      simp only [runDelivered, fetchFar_subCommand hx hu] at h
      exact .inl ((runCode_subCommand_speed h).trans rfl)
    | false =>
      simp only [runDelivered, fetchFar_packet hx hu] at h
      have hfrom := runCode_packet_speed h
      exact .inr ⟨rfl, hfrom⟩

/-- With something waiting at the far end, the step is its run (log 22). -/
theorem step_of_waiting {s : State} (hr : s.rst = false) (hx : s.far.rx ≠ []) : step s = runDelivered s := by
  cases hf : s.fetchFar with
  | none => exact absurd (fetchFar_none.mp hf) hx
  | some x => rw [step_of_fetchFar hr hf]; simp only [runDelivered, hf]

/-- A packet of the block that is cut short leaves the speed, unless it is a speed packet that arrived whole (R248). -/
theorem afterFailed_speed {b : Block} {p : Bytes} (hp : b.outPacket = some p) (d : Nat) (f : FarEnd) :
    SpeedFrom p f (f.afterFailed d p) := by
  cases hq : b.fsm <;> simp only [Block.outPacket, hq] at hp <;> cases hp
  case csOn => exact .inl (afterFailed_csframe d true f).1
  case tx => exact .inl (afterFailed_stream_speed d _ f)
  case csOff => exact .inl (afterFailed_csframe d false f).1
  case spd =>
    obtain e | e := afterFailed_speedPacket d b.preq.1 b.preq.2 f <;> rw [e]
    · exact .inl rfl
    · exact .inr ⟨_, _, rfl, rfl⟩

/-- The far end's speed in `t` is that in `s`, or that of the packet that the block sends in its state in `s`. -/
def SpeedFromBlock (s t : State) : Prop :=
  t.far.speed = s.far.speed ∨ ∃ p, s.st.outPacket = some p ∧ SpeedFrom p s.far t.far

theorem assertReset_speed (s : State) :
    s.assertReset.far.speed = s.far.speed ∨ (s.far.rx = [] ∧ SpeedFromBlock s s.assertReset) := by
  have hfar : s.assertReset.far = s.farAfterReset := rfl
  rw [SpeedFromBlock, hfar]
  unfold State.farAfterReset
  split
  next => exact .inl rfl
  next hx =>
    split
    next p hp => exact .inr ⟨hx, .inr ⟨p, hp, afterFailed_speed hp _ _⟩⟩
    next => left; split <;> rfl

/-- The block's transaction and the far end's run of what it delivers: the packet of the block's state, run whole, cut
short, or not sent at all. -/
theorem runDelivered_blockStep_speed {s t : State} (hx : s.far.rx = []) (h : runDelivered (blockStep s) = .next t) :
    SpeedFromBlock s t := by
  have run_of_empty (he : (blockStep s).far.rx = []) : t = blockStep s := by
    cases (runDelivered_empty he).symm.trans h; rfl
  obtain e | ⟨p, r, s1, hp, ho, e⟩ | ⟨r, s1, -, ht, e⟩ := blockStep_far_cases s
  · rw [run_of_empty (by rw [e, hx])]
    exact .inl (congrArg FarEnd.speed e)
  · right
    refine ⟨p, hp, ?_⟩
    by_cases hr : r = .done p.length
    · rw [(ho.delivered hr).1] at e
      have hrun := runDelivered_speed h
      rw [e] at hrun
      exact hrun.elim .inl And.right
    · rw [run_of_empty (by rw [e, ho.far_rx_of_not_done hr, hx]), e, (ho.not_delivered hr).1]
      exact afterFailed_speed hp _ _
  · obtain ⟨j, hj⟩ := ht.far_eq
    rw [run_of_empty (by rw [e, ht.far_rx, hx])]
    left; rw [e, hj]

theorem Accepted.far_eq {s t : State} (h : Accepted s t) : t.far = s.far := by
  cases h <;> rfl

/-- The packet of the block that sets another speed is that of the SPEED in progress in SPD (R200, R202). -/
theorem SpeedFromBlock.old_or_requested {s t : State} (h : SpeedFromBlock s t) :
    t.far.speed = s.far.speed ∨
      ∃ mode dbl, t.far.speed = .set mode dbl ∧ s.st.fsm = .spd ∧ s.st.preq = (mode, dbl) := by
  obtain e | ⟨p, hp, e | ⟨mode, dbl, rfl, e⟩⟩ := h
  · exact .inl e
  · exact .inl e
  · exact .inr ⟨mode, dbl, e, Block.speeding_of_outPacket hp⟩

/-- A step sets the speed from what waits at the far end, or with nothing waiting there from the block's own packet. -/
theorem step_speed {s t : State} (h : step s = .next t) :
    t.far.speed = s.far.speed ∨ (s.far.uioOpen = false ∧ SpeedFrom s.far.rx s.far t.far) ∨
      (s.far.rx = [] ∧ SpeedFromBlock s t) := by
  obtain ⟨_, rfl⟩ | ⟨hr, hx, _⟩ | ⟨_, hi, r, more, i, hq, hd, he⟩ | ⟨_, _, _, rfl⟩ | ⟨hm, _, hb⟩ := step_cases h
  · exact (assertReset_speed s).imp_right .inr
  · rw [step_of_waiting hr hx] at h
    exact (runDelivered_speed h).imp_right .inl
  · exact .inl (congrArg FarEnd.speed (accepted_of_exec hi hq hd he).far_eq)
  · exact .inl rfl
  · exact .inr (.inr ⟨hm.2, runDelivered_blockStep_speed hm.2 hb⟩)

/-- Settles O58, by the two places of `step_speed` that a speed packet can come from. -/
theorem onlySpeedPacketsChangeSpeed : Obligations.OnlySpeedPacketsChangeSpeed := by
  intro s t h
  obtain e | ⟨hu, e | ⟨mode, dbl, hp, e⟩⟩ | ⟨hx, hb⟩ := step_speed h
  · exact .inl e
  · exact .inl e
  · exact .inr ⟨mode, dbl, e, .inl ⟨hp, hu⟩⟩
  · obtain e | ⟨mode, dbl, e, hspd⟩ := hb.old_or_requested
    · exact .inl e
    · exact .inr ⟨mode, dbl, e, .inr ⟨hx, hspd⟩⟩

end Sys2Proof.Machine
end

section
/-! PROOFS of 60_exceptions.md: the four errors and the errors of results (R210, R211), which state can raise which error
(R212), the first-error rule (R213), and what taking an error changes in the block (R214). -/

namespace Sys2Proof.Machine

/-- Settles O25: the rows of the two tables. -/
theorem errorKindsAndCodes : Obligations.ErrorKindsAndCodes :=
  ⟨fun _ => ⟨rfl, rfl⟩, ⟨rfl, rfl⟩, fun _ => ⟨rfl, rfl⟩, fun _ => ⟨rfl, rfl⟩, fun _ => rfl, fun _ => rfl, rfl,
    fun _ => rfl, rfl⟩

/-! ### The first error -/

theorem raise_err_of_none {s : State} (h : s.st.err = none) (e : Error) : (s.raise e).st.err = some e := by
  rw [raise_err, firstError_eq, h, Option.getD_none]

theorem raise_err_of_some {s : State} {f : Error} (h : s.st.err = some f) (e : Error) :
    (s.raise e).st.err = some f := by
  rw [raise_err, firstError_eq, h, Option.getD_some]

/-- Settles O26: `raise` by what was recorded before, and the failed deassert frame of O23. -/
theorem firstErrorWins : Obligations.FirstErrorWins := by
  refine ⟨fun _ e h => raise_err_of_none h e, fun _ e _ h => raise_err_of_some h e, ?_⟩
  intro s s0 a f hm hq herr ha hr
  obtain ⟨t, hstep, -, -, -, -, -, hfailed⟩ := csOffSendsDeassertFrame s s0 a hm hq ha
  have hst := hfailed hr
  rw [herr, Option.getD_some] at hst
  exact ⟨t, hstep, by rw [hst], by rw [hst], by rw [hst]⟩

/-! ### The errors of each state -/

theorem Fsm.mayRaise.ne_idle {q : Fsm} {sent asked : Nat} {e : Error} (h : q.mayRaise sent asked e) : q ≠ .idle := by
  rintro rfl
  cases e <;> simp [Fsm.mayRaise] at h

theorem Fsm.mayRaise.ne_resp {q : Fsm} {sent asked : Nat} {e : Error} (h : q.mayRaise sent asked e) : q ≠ .resp := by
  rintro rfl
  cases e <;> simp [Fsm.mayRaise] at h

/-- The errors the block can raise in its state, with the sizes of the transfer it issues there (R212). -/
def Block.MayRaise (b : Block) (e : Error) : Prop :=
  b.fsm.mayRaise (streamPacket b.obuf b.k).length (payloadCount b.obuf b.k) e

/-- The states that send a packet, each with its own (R141, R142, R163, R200). -/
theorem Block.fsm_of_outPacket {b : Block} {p : Bytes} (h : b.outPacket = some p) :
    (b.fsm = .csOn ∧ p = csframe true) ∨ (b.fsm = .tx ∧ p = streamPacket b.obuf b.k) ∨
      (b.fsm = .csOff ∧ p = csframe false) ∨ (b.fsm = .spd ∧ p = speedPacket b.preq.1 b.preq.2) := by
  cases hq : b.fsm <;> simp only [Block.outPacket, hq] at h <;> cases h <;> simp

/-- A state that sends a packet raises the errors of an OUT transfer, with a short write below the packet's length. -/
theorem Block.mayRaise_errOfOut {b : Block} {p : Bytes} {r : OutResult} (hp : b.outPacket = some p)
    (hr : ∀ m, r = .done m → m < p.length) : b.MayRaise (errOfOut r) := by
  have hcases := b.fsm_of_outPacket hp
  have hstate : b.fsm = .csOn ∨ b.fsm = .tx ∨ b.fsm = .rx ∨ b.fsm = .csOff ∨ b.fsm = .spd := by
    obtain ⟨hq, -⟩ | ⟨hq, -⟩ | ⟨hq, -⟩ | ⟨hq, -⟩ := hcases <;> simp [hq]
  cases r with
  | done m =>
    have hm : m < p.length := hr m rfl
    obtain ⟨hq, rfl⟩ | ⟨hq, rfl⟩ | ⟨hq, rfl⟩ | ⟨hq, rfl⟩ := hcases
    · exact .inl ⟨hq, hm⟩
    · exact .inr (.inl ⟨hq, hm⟩)
    · exact .inr (.inr (.inl ⟨hq, hm⟩))
    · exact .inr (.inr (.inr ⟨hq, hm⟩))
  | fail c => exact hstate
  | timedOut => exact hstate

theorem OutTaken.mayRaise {p : Bytes} {s s1 : State} {r : OutResult} (h : OutTaken p s r s1)
    (hp : s.st.outPacket = some p) (hr : r ≠ .done p.length) : s.st.MayRaise (errOfOut r) :=
  Block.mayRaise_errOfOut hp fun _ hm => (h.result_le hm).lt_of_ne fun hlen => hr (hlen ▸ hm)

/-- RX raises the errors of an IN transfer, with a short reply below the length asked for. -/
theorem Block.mayRaise_errOfIn {b : Block} {r : InResult} (hq : b.fsm = .rx)
    (hr : ∀ x, r = .data x → x.length < payloadCount b.obuf b.k) : b.MayRaise (errOfIn r) := by
  cases r with
  | data x => exact ⟨hq, hr x rfl⟩
  | fail c => exact .inr (.inr (.inl hq))
  | timedOut => exact .inr (.inr (.inl hq))

/-! ### The block after an error -/

theorem setCs_st (c : CsRecord) (s : State) : (s.setCs c).st = { s.st with cs := c } := rfl

theorem setSpd_st (v : Option (BitVec 2 × Bool)) (s : State) : (s.setSpd v).st = { s.st with spd := v } := rfl

theorem abort_st (e : Error) (q : Fsm) (s : State) :
    (s.abort e q).st = { s.st with err := some (s.st.err.getD e), fsm := q } := by
  rw [← firstError_eq]; rfl

theorem raise_respond_st (e : Error) (r : Response) (s : State) :
    ((s.raise e).respond r).st = { s.st with err := some (s.st.err.getD e), rsp := r, fsm := .resp } := by
  rw [← firstError_eq]; rfl

/-- The block after its state took the error `e`: the first error recorded, the next state of R212, and what R141, R142,
R166 and R200 write besides. IDLE and RESP take none. -/
def Block.afterError (b : Block) (e : Error) : Block :=
  match b.fsm with
  | .csOn => { b with err := some (b.err.getD e), cs := .unknown, fsm := .csOff }
  | .tx => { b with err := some (b.err.getD e), fsm := .csOff }
  | .rx => { b with err := some (b.err.getD e), fsm := .csOff }
  | .csOff => { b with err := some (b.err.getD e), cs := .unknown, rsp := .err (b.err.getD e), fsm := .resp }
  | .spd => { b with err := some (b.err.getD e), spd := none, rsp := .err (b.err.getD e), fsm := .resp }
  | .idle => b
  | .resp => b

theorem Block.MayRaise.afterError_err {b : Block} {e : Error} (h : b.MayRaise e) :
    (b.afterError e).err = some (b.err.getD e) := by
  cases hq : b.fsm <;> simp only [Block.afterError, hq]
  case idle => exact absurd hq h.ne_idle
  case resp => exact absurd hq h.ne_resp

theorem Block.MayRaise.afterError_fsm {b : Block} {e : Error} (h : b.MayRaise e) :
    (b.afterError e).fsm = if b.fsm = .csOff ∨ b.fsm = .spd then .resp else .csOff := by
  cases hq : b.fsm <;> simp [Block.afterError, hq]
  case idle => exact absurd hq h.ne_idle
  case resp => exact absurd hq h.ne_resp

/-- A transaction of the block leaves `err`, or takes one error that its state can raise. -/
theorem Transaction.error_cases {s t : State} (h : Transaction s t) :
    t.st.err = s.st.err ∨ ∃ e, s.st.MayRaise e ∧ t.st = s.st.afterError e := by
  cases h with
  | hold => exact .inl rfl
  | handedBack _ => exact .inl rfl
  | replyTaken _ ht _ => left; simp [ht.st_eq]
  | replyFailed hq ht hr =>
    refine .inr ⟨_, Block.mayRaise_errOfIn hq hr, ?_⟩
    simp only [Block.afterError, hq, abort_st, ht.st_eq]
  | assertFailed hq ho hr | packetFailed hq ho hr | deassertFailed hq ho hr | speedFailed hq ho hr =>
    refine .inr ⟨_, ho.mayRaise (by simp only [Block.outPacket, hq]) hr, ?_⟩
    simp only [Block.afterError, hq, abort_st, raise_respond_st, setCs_st, setSpd_st, ho.st_eq, firstError_eq,
      exchangeResponse]
  | _ _ ho => left; simp [ho.st_eq]

/-- An accepted request leaves `err` or clears it (R160, R200). -/
theorem Accepted.err_cases {s t : State} (h : Accepted s t) : t.st.err = s.st.err ∨ t.st.err = none := by
  cases h with
  | exchange _ _ => exact .inr rfl
  | speed _ => exact .inr rfl
  | answered _ => exact .inl rfl

/-- A step that records an error where none was: only the block's own transaction does, and `afterError` is all it
changes in the block. -/
theorem step_newError {s t : State} {e : Error} (h : step s = .next t) (hs : s.st.err = none) (ht : t.st.err = some e) :
    s.st.MayRaise e ∧ t.st = s.st.afterError e := by
  have hcases : t.st.err = s.st.err ∨ t.st.err = none ∨ ∃ f, s.st.MayRaise f ∧ t.st = s.st.afterError f := by
    obtain ⟨_, rfl⟩ | ho | ⟨_, ha⟩ | ⟨_, u, hu, ho⟩ := step_block_cases h
    · exact .inr (.inl rfl)
    · exact .inl (by rw [ho.st_eq])
    · exact ha.err_cases.imp_right .inl
    · exact ho.st_eq ▸ hu.error_cases.imp_right .inr
  obtain he | he | ⟨f, hf, hst⟩ := hcases
  · simp [he, hs] at ht
  · simp [he] at ht
  · rw [hst, hf.afterError_err, hs] at ht
    obtain rfl : f = e := Option.some.inj ht
    exact ⟨hf, hst⟩

/-! ### The obligations of the error table -/

/-- Settles O27, by `step_newError`. -/
theorem errorsFollowTheTable : Obligations.ErrorsFollowTheTable := by
  intro s t e _ _ h hs ht
  obtain ⟨he, hst⟩ := step_newError h hs ht
  exact ⟨he, hst ▸ he.afterError_fsm⟩

/-- Settles O28, by `step_newError`: the fields that `Block.afterError` writes in each state. -/
theorem abortSavesOnlyTheError : Obligations.AbortSavesOnlyTheError := by
  intro s t e _ _ h hs ht
  obtain ⟨-, hst⟩ := step_newError h hs ht
  refine ⟨fun hq => ?csOn, fun hq => ?stream, fun hq => ?csOff, fun hq => ?spd⟩
  case csOn => simp only [hst, Block.afterError, hq, hs, Option.getD_none]
  case stream => obtain hq | hq := hq <;> simp only [hst, Block.afterError, hq, hs, Option.getD_none]
  case csOff => simp only [hst, Block.afterError, hq, hs, Option.getD_none]
  case spd => simp only [hst, Block.afterError, hq, hs, Option.getD_none]

end Sys2Proof.Machine
end

section
/-! PROOFS of 70_reset_and_hazards.md: the requests that wait (R246), the far end after a speed packet that failed (R248),
what a reset gives and what it leaves of a transfer in progress (R240, R241; D25), and the exchange without a payload
(R243). -/

namespace Sys2Proof.Machine

/-! ### Requests outside IDLE -/

/-- Outside IDLE every request waits: its meaning leaves the state (R20, R246; log 23). -/
theorem exec_request_busy {i : Instr} {r : ReqRecord} {s : State} (hi : encode i = .request r)
    (hs : s.st.fsm ≠ .idle) : exec i s = .next s := by
  cases i with
  | xchg out cap => exact acceptInIdle_busy hs
  | speed mode dbl => exact acceptInIdle_busy hs
  | rev b => exact acceptInIdle_busy hs
  | csf sel => exact acceptInIdle_busy hs
  | tile payload => exact acceptInIdle_busy hs
  | _ => cases hi

/-- Outside IDLE a step without reset takes nothing off REQ (R20, R246). -/
theorem step_busy_req {s t : State} (hr : s.rst = false) (hs : s.st.fsm ≠ .idle) (h : step s = .next t) :
    t.req = s.req := by
  obtain ⟨hreset, _⟩ | ⟨_, _, ho⟩ | ⟨_, hidle, _⟩ | ⟨_, hidle, _⟩ | ⟨_, _, hb⟩ := step_cases h
  · simp [hr] at hreset
  · exact ho.req_eq
  · exact absurd hidle hs
  · exact absurd hidle hs
  · exact (runDelivered_onlyFar hb).req_eq.trans (blockStep_req s)

/-- Settles O19; the last clause is the one of O7 on a requester that is not ready. -/
theorem busyRequestsWait : Obligations.BusyRequestsWait := by
  refine ⟨fun _ _ _ hi hs => exec_request_busy hi hs, fun _ _ hr hs h => step_busy_req hr hs h, ?_⟩
  intro s hm hq hready
  obtain ⟨-, -, hnoTaker, -⟩ := blockHoldsWithoutResult s hm
  exact hnoTaker hready hq

/-! ### A speed packet that fails -/

/-- `g` is the far end `f` with the speed left or set to the new one, some first bytes of the reply held gone, and no IO
stream open (R248; log 10, log 15). -/
def FarEnd.OldOrNewSpeed (f : FarEnd) (mode : BitVec 2) (dbl : Bool) (g : FarEnd) : Prop :=
  (∃ j, g = { f with speed := g.speed, reply := f.reply.drop j, uioOpen := false }) ∧
    (g.speed = f.speed ∨ g.speed = .set mode dbl)

theorem afterFailed_oldOrNewSpeed (d : Nat) (mode : BitVec 2) (dbl : Bool) (f : FarEnd) :
    f.OldOrNewSpeed mode dbl (f.afterFailed d (speedPacket mode dbl)) := by
  obtain e | e := afterFailed_speedPacket d mode dbl f <;> rw [e]
  · exact ⟨⟨_, rfl⟩, .inl rfl⟩
  · exact ⟨⟨_, rfl⟩, .inr rfl⟩

/-- SPD with an answer that is not full: the far end is as the failed transfer leaves it (R56, R200). -/
theorem step_spd_failed {s s0 : State} {a : Answer} (hm : s.BlockMoves) (hq : s.st.fsm = .spd)
    (ha : s.answerOut = some (a, s0)) (hr : outResult a 3 ≠ .done 3) :
    ∃ t, step s = .next t ∧ t.far = s.far.afterFailed s.draws (speedPacket s.st.preq.1 s.st.preq.2) := by
  obtain ⟨hnone, _⟩ | ⟨r, s1, ho, e⟩ := spdStep_cases s
  · simp [ha] at hnone
  obtain ⟨rfl, -⟩ := ho.of_answer ha
  rw [speedPacket_length] at ho e
  have hfar : (spdStep s).far = s1.far := by rw [e, if_neg hr]; rfl
  have hempty : (spdStep s).far.rx = [] := by rw [hfar, ho.far_rx_of_not_done hr, hm.2]
  refine ⟨spdStep s, ?_, hfar.trans (ho.not_delivered hr).1⟩
  rw [step_busy hm (by simp [hq])]
  simp only [blockStep, hq, runDelivered_empty hempty]

/-- Settles O55: the step of `step_spd_failed`. -/
theorem failedSpeedLeavesOldOrNew : Obligations.FailedSpeedLeavesOldOrNew := by
  intro s s0 a hm hq ha hr
  obtain ⟨t, hstep, hfar⟩ := step_spd_failed hm hq ha hr
  obtain ⟨⟨j, heq⟩, hspeed⟩ := hfar ▸ afterFailed_oldOrNewSpeed s.draws s.st.preq.1 s.st.preq.2 s.far
  exact ⟨t, j, hstep, heq, hspeed⟩

/-! ### The far end after a reset -/

/-- What waits at the far end keeps the reset away from it (log 22, log 30). -/
theorem farAfterReset_of_waiting {s : State} (hx : s.far.rx ≠ []) : s.farAfterReset = s.far := by
  unfold State.farAfterReset
  split
  next => rfl
  next he => exact absurd he hx

/-- A reset in a state that sends a packet may cut that packet off (R241, D25; log 30). -/
theorem farAfterReset_of_outPacket {s : State} {p : Bytes} (hx : s.far.rx = []) (hp : s.st.outPacket = some p) :
    s.farAfterReset = s.far.afterFailed s.draws p := by
  simp only [State.farAfterReset, hx, hp]

/-- A reset in RX may cut the read off (R241, D25; log 30). -/
theorem farAfterReset_of_rx {s : State} (hx : s.far.rx = []) (hq : s.st.fsm = .rx) :
    s.farAfterReset = s.far.loseReply s.draws := by
  simp only [State.farAfterReset, hx, Block.outPacket, hq, if_true]

/-- IDLE and RESP have no transfer to cut off. -/
theorem farAfterReset_of_no_transfer {s : State} (hp : s.st.outPacket = none) (hq : s.st.fsm ≠ .rx) :
    s.farAfterReset = s.far := by
  unfold State.farAfterReset
  split
  next => rfl
  next => simp only [hp, if_neg hq]

theorem farAfterReset_of_idle_or_resp {s : State} (hq : s.st.fsm = .idle ∨ s.st.fsm = .resp) :
    s.farAfterReset = s.far := by
  obtain hq | hq := hq <;> exact farAfterReset_of_no_transfer (by simp only [Block.outPacket, hq]) (by simp [hq])

/-- Settles O39: the step is `State.assertReset`. -/
theorem resetGivesResetValues : Obligations.ResetGivesResetValues := by
  refine ⟨fun s hr => ⟨_, step_reset hr, rfl, farAfterReset_rx s, ?far⟩, fun _ => rfl⟩
  case far =>
    rintro (hidle | hresp | hx)
    · exact farAfterReset_of_idle_or_resp (.inl hidle)
    · exact farAfterReset_of_idle_or_resp (.inr hresp)
    · exact farAfterReset_of_waiting hx

/-! ### A reset that cuts a transfer off -/

/-- `g` is the far end `f` after some first `m` of the payload bytes `ws` were shifted, as far as it is fixed: the select
window, how much reply is held, and all that a stream packet does not touch (R58, I9; log 10). -/
def FarEnd.SomePrefixShifted (f : FarEnd) (ws : Bytes) (g : FarEnd) : Prop :=
  ∃ m, m ≤ ws.length ∧
    g.window = (if f.selected then f.window ++ ws.take m else f.window) ∧
    (m = 0 → ∃ j, g.reply = f.reply.drop j) ∧ (m ≠ 0 → g.reply.length = m) ∧
    g.selected = f.selected ∧ g.lines = f.lines ∧ g.dirs = f.dirs ∧ g.speed = f.speed ∧ g.seqs = f.seqs

theorem afterFailed_somePrefixShifted {d : Nat} {ws : Bytes} {f : FarEnd} (hpos : 1 ≤ ws.length)
    (hmax : ws.length ≤ Config.payMax) : f.SomePrefixShifted ws (f.afterFailed d (Config.opSpiStream :: ws)) := by
  obtain ⟨m, hm, hg⟩ := afterFailed_stream (d := d) (f := f) hpos hmax
  rw [hg]
  refine ⟨m, hm, ?_⟩
  split
  case isTrue h0 => exact ⟨by simp [h0], fun _ => ⟨_, rfl⟩, absurd h0, rfl, rfl, rfl, rfl, rfl⟩
  case isFalse h0 => simp [h0, hm]

section CutOff

variable {s : State}

theorem farAfterReset_speeding (hx : s.far.rx = []) (hq : s.st.fsm = .spd) :
    s.far.OldOrNewSpeed s.st.preq.1 s.st.preq.2 s.farAfterReset := by
  have hp : s.st.outPacket = some (speedPacket s.st.preq.1 s.st.preq.2) := by simp only [Block.outPacket, hq]
  exact farAfterReset_of_outPacket hx hp ▸ afterFailed_oldOrNewSpeed _ _ _ _

theorem farAfterReset_sending (hx : s.far.rx = []) (hq : s.st.fsm = .tx) (hk : s.st.k < packetCount s.st.obuf.length) :
    s.far.SomePrefixShifted ((chunk s.st.obuf s.st.k).map rev8) s.farAfterReset := by
  have hp : s.st.outPacket = some (streamPacket s.st.obuf s.st.k) := by simp only [Block.outPacket, hq]
  rw [farAfterReset_of_outPacket hx hp]
  exact afterFailed_somePrefixShifted (by simpa using chunk_length_pos hk) (by simpa using chunk_length_le _ _)

theorem farAfterReset_framing (hx : s.far.rx = []) (hq : s.st.fsm = .csOn ∨ s.st.fsm = .csOff) :
    s.farAfterReset.speed = s.far.speed ∧ ∃ j, s.farAfterReset.reply = s.far.reply.drop j := by
  obtain ⟨sel, hp⟩ : ∃ sel, s.st.outPacket = some (csframe sel) := by
    obtain hq | hq := hq
    · exact ⟨true, by simp only [Block.outPacket, hq]⟩
    · exact ⟨false, by simp only [Block.outPacket, hq]⟩
  obtain ⟨hspeed, hreply⟩ := afterFailed_csframe s.draws sel s.far
  rw [farAfterReset_of_outPacket hx hp]
  exact ⟨hspeed, _, hreply⟩

theorem farAfterReset_reading (hx : s.far.rx = []) (hq : s.st.fsm = .rx) :
    ∃ j, s.farAfterReset = { s.far with reply := s.far.reply.drop j } := by
  rw [farAfterReset_of_rx hx hq]
  exact loseReply_eq s.draws s.far

end CutOff

/-- Settles O57: the step is `State.assertReset`, and the far end is that of the transfer its state had in progress. -/
theorem resetCutsOffTransfer : Obligations.ResetCutsOffTransfer := by
  intro s hr hx
  refine ⟨_, step_reset hr, (farAfterReset_rx s).trans hx, fun hq => ?spd, fun hq hk => ?tx, fun hq => ?frame,
    fun hq => ?rx⟩
  case spd => exact farAfterReset_speeding hx hq
  case tx => exact farAfterReset_sending hx hq ((lt_packetCount_iff _ _).mpr hk)
  case frame => exact farAfterReset_framing hx hq
  case rx => exact farAfterReset_reading hx hq

/-! ### The exchange without a payload -/

/-- Settles O53: O49 and O51 for the payload that has no packet. -/
theorem emptyExchangeRecovers : Obligations.EmptyExchangeRecovers := by
  intro s cap hp ha
  obtain ⟨t, reply, hrun, -, htrace, hrsps, -, hcs, -⟩ := exchangeSucceeds s [] cap hp ha
  obtain ⟨u, hrun', hsel, -⟩ := exchangeIsOneSpiSequence s [] cap hp ha
  cases hrun.symm.trans hrun'
  exact ⟨t, hrun, htrace, by simpa [packetCount, extract] using hrsps, hcs, hsel⟩

end Sys2Proof.Machine
end
